-- ==== Sys2Proof/Word.lean ====
section
/-!
DEFINITION. Word.lean: the machine's word types and the plainest operations on them (R8, R22).
-/
namespace Sys2Proof

/-- A 64-bit register or memory word. -/
abbrev Word := BitVec 64

/-- One byte of storage. -/
abbrev Byte := BitVec 8

/-- One 32-bit slot word (R22). -/
abbrev SlotWord := BitVec 32

end Sys2Proof
end

