-- ==== Sys2Proof/Syntax.lean ====
section
/-!
DEFINITION. Syntax.lean: register names, the modifiers of the instruction forms, and the instructions.
Register numbers and codes follow R49, R54, R56 to R66.
-/
namespace Sys2Proof

/-- A g register field (R65). -/
abbrev GReg := BitVec 6
/-- A v register number (R65). -/
abbrev VReg := BitVec 5
/-- A p register number (R65). -/
abbrev PReg := BitVec 4
/-- A macro handle m0 to m7 (R65). -/
abbrev MReg := BitVec 3
/-- LAND, the landing distance of a result (R24). -/
abbrev Land := BitVec 4
/-- The signed 6-bit offset of an MO slot (R24). -/
abbrev Ofs := BitVec 6
/-- The signed 14-bit immediate of an RI slot (R23). -/
abbrev Imm14 := BitVec 14
/-- The signed 20-bit displacement of a CB slot (R23). -/
abbrev Disp := BitVec 20

/-- The scope codes of R49, narrowest first. -/
inductive Scope | berth | tile | spur | field | wafer | sys
  deriving DecidableEq, Repr

/-- The widths of LD and ST (R57). -/
inductive LdW | b | h | w | d | q
  deriving DecidableEq, Repr

/-- The widths of LDS (R57). -/
inductive LdsW | b | h | w
  deriving DecidableEq, Repr

/-- The format bit of an FLT cell (R56). -/
inductive FFmt | f32 | f64
  deriving DecidableEq, Repr

/-- The conditions of FCMP (R56). -/
inductive FCond | eq | lt | le | un
  deriving DecidableEq, Repr

/-- The sub-ops of FCVT (R56, R112). -/
inductive FCvt | other | i64 | ui64 | fi64 | fui64 | bf16 | fp16
  deriving DecidableEq, Repr

/-- The conditions of BRN.p (R54). -/
inductive PCond | p | np | any | none
  deriving DecidableEq, Repr

/-- The operations of AMO and AMOS (R60). -/
inductive AmoOp | add | min | max | and | or | xor | swp | cas
  deriving DecidableEq, Repr

/-- The operations of RED (R61). -/
inductive RedOp | add | min | max | and | or | xor
  deriving DecidableEq, Repr

/-- The widths of AMO and RED, 4 or 8 bytes (R60). -/
inductive AmoW | w | d
  deriving DecidableEq, Repr

/-- The ordering codes of AMOS (R60). -/
inductive AmoOrd | acq | rel | ar
  deriving DecidableEq, Repr

/-- The variants of TLW, TMM, TMMG, TSPZ and TDR (R63). -/
inductive MVar | bf16 | fp16 | fp32 | ft | f0
  deriving DecidableEq, Repr

/-- The variants of TRANK (R63). -/
inductive RVar | bf16 | fp16 | fp32
  deriving DecidableEq, Repr

/-- The element sizes of the copy and gather macros (R63). -/
inductive ESize | e1 | e2 | e4 | e8 | e16 | e64
  deriving DecidableEq, Repr

/-- The special registers that CSRR lands and CSRW writes (R66, R120, R328, R351, R416). -/
inductive SpecReg
  | tag | fptr | berthno | jobid
  | lc (k : BitVec 2)
  | fflags | fctl | vlt
  | fmt (k : BitVec 4)
  | shape (k : BitVec 2)
  | cctl (c : BitVec 2) | clim (c : BitVec 2) | ctmpl (c : BitVec 2) | ctag (c : BitVec 2) | cpos (c : BitVec 2)
  | cemit (c : BitVec 2)
  | evctl | evnow | evqlen | evdrop | evans
  | evwl (k : BitVec 2) | evwh (k : BitVec 2)
  | pbub | frzc | vhaz | latev | cyc | retb | enjob | enfld
  | svec | scause | sbad | sdet | sberth | ssave | sstat
  | esoftc | ehardc | ejlimc | estatc | ewpos
  deriving DecidableEq, Repr

/-- The tile counters whose reading clears them (R66, R328, R412). -/
inductive RscReg | pbub | frzc | vhaz | latev | evdrop | evans
  deriving DecidableEq, Repr

/-- The macro queues of a tile (R167). -/
inductive Queue | matrix | gather | copy (k : BitVec 2) | egress
  deriving DecidableEq, Repr

/-- The five ports of a router (R251, R379). -/
inductive Port | n | e | s | w | l
  deriving DecidableEq, Repr

/-- What an uncorrectable error of R364 is found in (the supervisor trap of reason 2 is found by the core itself). -/
inductive TileFaultCause
  /-- Reason 1: an uncorrectable error in the tile's own storage, with whether the frame area is still readable; when it is
  not, a save meets the uncorrectable word (R369). -/
  | storage (addr : BitVec 64) (framesReadable : Bool)
  /-- Reason 3: a read of poisoned bytes at a physical address. -/
  | poison (addr : Nat)
  deriving DecidableEq, Repr

/-- The storage units that a soft-error record names (R360, record 0x20). -/
inductive StorageUnit | scratchpad | frames | registers | bank | caches
  deriving DecidableEq, Repr

/-- A soft error that is corrected (R365): a single-bit error of a unit, or a double error in a clean copy of sector `key` of the tile data
cache, which is invalidated. -/
inductive SoftError
  | single (u : StorageUnit)
  | cleanCopy (key : Nat)
  deriving DecidableEq, Repr

/-- What an LLC bank or the cache hierarchy does next at a home (R307, R308). -/
inductive HomeAct
  /-- Outstanding access `k` of tile `t` goes on, as far as it can. -/
  | start (t : Nat) (k : Nat)
  /-- A copy queue of tile `t` requests a further burst (R378). -/
  | burst (t : Nat) (q : Queue)
  /-- The slice of a spur cache performs request `k`, which has reached its tile (R307). -/
  | slice (k : Nat)
  /-- The home performs request `k`, which has reached its quay (R308). -/
  | queued (k : Nat)
  /-- Evict sector `k` of tile `t`'s data cache (R307). -/
  | evictTile (t : Nat) (k : Nat)
  /-- Evict sector `k` of the spur cache of spur `sp` (R307). -/
  | evictSpur (sp : Nat) (k : Nat)
  /-- A write by a Filhus core, performed at its home. -/
  | filhus (pa : Nat) (bytes : List Byte)
  /-- A load of up to 8 bytes by a Filhus core. -/
  | filhusLoad (pa : Nat) (n : Nat)
  /-- An AMO by a Filhus core, with its operands. -/
  | filhusAmo (op : AmoOp) (wd : AmoW) (pa : Nat) (b c : Word)
  /-- A fence of a Filhus core. -/
  | filhusFence
  /-- A load of `n` bytes by another module, performed at its home here (R278). -/
  | moduleLoad (pa : Nat) (n : Nat)
  /-- A write by module `m`. -/
  | moduleWrite (m : BitVec 19) (pa : Nat) (bytes : List Byte)
  /-- An AMO by module `m`. -/
  | moduleAmo (m : BitVec 19) (op : AmoOp) (wd : AmoW) (pa : Nat) (b c : Word)
  /-- A write to memory of another module by an agent there, from the physical key of a byte up. -/
  | farWrite (key : Nat) (bytes : List Byte)
  deriving DecidableEq, Repr

/-- Where a translation miss stands (R312, R313). -/
inductive WalkAct
  /-- At tile `t`: a miss of it asks the spur translation cache, and is sent on where that does not hold its translation. -/
  | ask (t : Nat)
  /-- At its quay: a walk request, a packet that has reached it, joins a walk there, takes a walker, or queues. -/
  | join
  deriving DecidableEq, Repr

/-- A response that brings data (R377): of a read (MKIND 1), of an atomic (MKIND 5), of a walk (MKIND 7). -/
inductive RespKind
  | read
  | atomic
  | walk
  deriving DecidableEq, Repr

/-- A received Ethernet frame of a Niesk port (R393). -/
structure NieskFrame where
  /-- Ether type. -/
  etype : BitVec 16
  /-- Whether the frame check sequence fits. -/
  good : Bool
  /-- FSEQ. -/
  fseq : BitVec 32
  /-- ACK. -/
  ack : BitVec 32
  /-- VC. -/
  vc : BitVec 2
  /-- CRED. -/
  cred : BitVec 16
  /-- The flits that it carries; NFL is their number. -/
  flits : List (BitVec 256)
  deriving DecidableEq, Repr

/-- A management-port frame that carries a cairn command (R430). -/
structure MgmtFrame where
  /-- The command register value it carries. -/
  cmd : BitVec 64
  /-- The data it carries. -/
  data : List Byte
  deriving DecidableEq, Repr

/-- An inbound PCIe transaction (R431). -/
structure PcieTx where
  /-- Port, 0 to 3. -/
  port : Nat
  /-- Whether it writes. -/
  write : Bool
  /-- I/O virtual address. -/
  addr : Nat
  /-- Bytes written, or the length of the read as that many zero bytes. -/
  bytes : List Byte
  deriving DecidableEq, Repr


/-- The instructions: one constructor for each row of the table of operations and events. The first 186 are
slot instructions (their operands are the fields of the slot word); the rest are the steps of the engines, the
network, the memory, the job table, the cairn controller and the environment, whose arguments say where the step
is taken and, for a register write, the value written. -/
inductive Instr
  /-- R52: Does nothing and belongs to no slot class; a bundle made only of NOPs still takes a sequence position. -/
  | nop
  /-- R113: Always-taken transfer to the address in gA, with two delay bundles. -/
  | jmpi (a : GReg)
  /-- R113: Has the effect of JMPI to gA and is marked as a return in trace and sample records. -/
  | ret (a : GReg)
  /-- R123: Ends the binding after its bundle retires and returns the token to the ready queue with its IP set to the next bundle. -/
  | yield
  /-- R123: Ends the binding after its bundle retires, releases the frame and frees the berth. -/
  | done
  /-- R124: Retires its bundle and then raises the software trap with gA as detail; in the supervisor berth it posts the current trap record instead. -/
  | trap (a : GReg)
  /-- R122: Checks and starts counter chain A[1:0] with first tag B[31:0]. -/
  | kchain (a : GReg) (b : GReg)
  /-- R222: Posts a request record to the job's service queue, or holds while that queue is full. -/
  | sys (a : GReg) (b : GReg)
  /-- R223: Retires its bundle and then raises the breakpoint trap with gA as detail. -/
  | brk (a : GReg)
  /-- R221: Retires and clears the berth's wait latch when the latch is set, and otherwise holds the berth until it is set. -/
  | wfe
  /-- R353: Supervisor transfer that, after its delay bundles, resumes, ends or yields the berth named by SBERTH.BERTH, as its save area's DISP selects. -/
  | eret
  /-- R224: Supervisor invalidation of translations, with the extent selected by B[1:0]. -/
  | tlbi (a : GReg) (b : GReg)
  /-- R224: Supervisor pre-emption of job berth A[1:0]: it stops the berth and its macros and starts the berth's save. -/
  | tpre (a : GReg)
  /-- R224: Stops the tile, keeping all state for observation. -/
  | halt
  /-- R113: Always-taken PC-relative branch with two delay bundles. -/
  | br (disp : Disp)
  /-- R113: PC-relative branch that lands its link address in gD in one bundle. -/
  | call (d : GReg) (disp : Disp)
  /-- R113: Always-taken jump to the window base plus DISP × 4. -/
  | jmp (disp : Disp)
  /-- R113: Branch taken when gD is 0. -/
  | brnZ (d : GReg) (disp : Disp)
  /-- R113: Branch taken when gD is not 0. -/
  | brnNz (d : GReg) (disp : Disp)
  /-- R54: Branch on predicate register pK under condition p, np, any or none. -/
  | brnP (c : PCond) (k : PReg) (disp : Disp)
  /-- R116: Opens a hardware loop whose iteration count is in gD. -/
  | loop (d : GReg) (disp : Disp)
  /-- R116: Opens a hardware loop with an immediate count of 1 to 64. -/
  | loopi (n : BitVec 6) (disp : Disp)
  /-- R106: Lands a + b in gD. -/
  | add (d : GReg) (a : GReg) (b : GReg)
  /-- R106: Lands a − b in gD. -/
  | sub (d : GReg) (a : GReg) (b : GReg)
  /-- R106: Lands the low 64 bits of a × b in gD after 3 bundles. -/
  | mul (d : GReg) (a : GReg) (b : GReg)
  /-- R106: Lands the high half of the signed product in gD. -/
  | mulh (d : GReg) (a : GReg) (b : GReg)
  /-- R106: Lands the high half of the unsigned product in gD. -/
  | mulhu (d : GReg) (a : GReg) (b : GReg)
  /-- R106: Lands the signed quotient in gD after 20 bundles, with the zero-divisor results of R89. -/
  | div (d : GReg) (a : GReg) (b : GReg)
  /-- R106: Lands the unsigned quotient in gD after 20 bundles. -/
  | divu (d : GReg) (a : GReg) (b : GReg)
  /-- R106: Lands the signed remainder in gD after 20 bundles. -/
  | rem (d : GReg) (a : GReg) (b : GReg)
  /-- R106: Lands the unsigned remainder in gD after 20 bundles. -/
  | remu (d : GReg) (a : GReg) (b : GReg)
  /-- R106: Lands the bitwise AND of a and b in gD. -/
  | and (d : GReg) (a : GReg) (b : GReg)
  /-- R106: Lands the bitwise OR of a and b in gD. -/
  | or (d : GReg) (a : GReg) (b : GReg)
  /-- R106: Lands the bitwise XOR of a and b in gD. -/
  | xor (d : GReg) (a : GReg) (b : GReg)
  /-- R106: Lands a AND NOT b in gD. -/
  | andn (d : GReg) (a : GReg) (b : GReg)
  /-- R106: Shifts a left by b[5:0]. -/
  | sll (d : GReg) (a : GReg) (b : GReg)
  /-- R106: Shifts a right logically by b[5:0]. -/
  | srl (d : GReg) (a : GReg) (b : GReg)
  /-- R106: Shifts a right arithmetically by b[5:0]. -/
  | sra (d : GReg) (a : GReg) (b : GReg)
  /-- R106: Rotates a right by b[5:0]. -/
  | ror (d : GReg) (a : GReg) (b : GReg)
  /-- R108: Shifts a left by an immediate count held in B. -/
  | sllImm (d : GReg) (a : GReg) (n : BitVec 6)
  /-- R108: Shifts a right logically by an immediate count. -/
  | srlImm (d : GReg) (a : GReg) (n : BitVec 6)
  /-- R108: Shifts a right arithmetically by an immediate count. -/
  | sraImm (d : GReg) (a : GReg) (n : BitVec 6)
  /-- R108: Rotates a right by an immediate count. -/
  | rorImm (d : GReg) (a : GReg) (n : BitVec 6)
  /-- R106: Counts the leading zero bits of a. -/
  | clz (d : GReg) (a : GReg)
  /-- R106: Counts the trailing zero bits of a. -/
  | ctz (d : GReg) (a : GReg)
  /-- R106: Counts the one bits of a. -/
  | popc (d : GReg) (a : GReg)
  /-- R106: Lands the signed minimum of a and b. -/
  | min (d : GReg) (a : GReg) (b : GReg)
  /-- R106: Lands the signed maximum of a and b. -/
  | max (d : GReg) (a : GReg) (b : GReg)
  /-- R106: Lands the unsigned minimum of a and b. -/
  | minu (d : GReg) (a : GReg) (b : GReg)
  /-- R106: Lands the unsigned maximum of a and b. -/
  | maxu (d : GReg) (a : GReg) (b : GReg)
  /-- R106: Lands 1 when s(a) < s(b), and 0 otherwise. -/
  | slt (d : GReg) (a : GReg) (b : GReg)
  /-- R106: Lands 1 when u(a) < u(b), and 0 otherwise. -/
  | sltu (d : GReg) (a : GReg) (b : GReg)
  /-- R107: Lands a when the old gD is nonzero, and b otherwise. -/
  | sel (d : GReg) (a : GReg) (b : GReg)
  /-- R107: Extracts a sign-extended bit field of a. -/
  | ext (d : GReg) (a : GReg) (b : GReg)
  /-- R107: Extracts a zero-extended bit field of a. -/
  | extu (d : GReg) (a : GReg) (b : GReg)
  /-- R107: Inserts the low bits of a into a field of gD. -/
  | ins (d : GReg) (a : GReg) (b : GReg)
  /-- R107: Lands gD + a × b modulo 2^64 after 3 bundles. -/
  | madd (d : GReg) (a : GReg) (b : GReg)
  /-- R106: Copies gA to gD. -/
  | mov (d : GReg) (a : GReg)
  /-- R109: Copies gA to gD across register clusters. -/
  | xmov (d : GReg) (a : GReg)
  /-- R110: Lands a plus the sign-extended immediate. -/
  | addi (d : GReg) (a : GReg) (imm : Imm14)
  /-- R110: Lands a AND the sign-extended immediate. -/
  | andi (d : GReg) (a : GReg) (imm : Imm14)
  /-- R110: Lands a OR the sign-extended immediate. -/
  | ori (d : GReg) (a : GReg) (imm : Imm14)
  /-- R110: Lands a XOR the sign-extended immediate. -/
  | xori (d : GReg) (a : GReg) (imm : Imm14)
  /-- R110: Lands the sign-extended immediate × 2^24. -/
  | lui (d : GReg) (imm : Imm14)
  /-- R110: Lands the bundle address plus the immediate. -/
  | addpc (d : GReg) (imm : Imm14)
  /-- R28: Extends the immediate or offset of the slot that directly follows it. -/
  | imx (v : BitVec 26)
  /-- R111: Floating addition rounded by RoundNE, landing after 4 bundles. -/
  | fadd (f : FFmt) (d : GReg) (a : GReg) (b : GReg)
  /-- R111: Floating subtraction. -/
  | fsub (f : FFmt) (d : GReg) (a : GReg) (b : GReg)
  /-- R111: Floating multiplication. -/
  | fmul (f : FFmt) (d : GReg) (a : GReg) (b : GReg)
  /-- R111: Fused multiply-add a × b + d, rounded once. -/
  | ffma (f : FFmt) (d : GReg) (a : GReg) (b : GReg)
  /-- R111: Floating division, landing after 14 bundles. -/
  | fdiv (f : FFmt) (d : GReg) (a : GReg) (b : GReg)
  /-- R111: Floating square root, landing after 14 bundles. -/
  | fsqrt (f : FFmt) (d : GReg) (a : GReg)
  /-- R111: Floating minimum, with special values as R85 gives. -/
  | fmin (f : FFmt) (d : GReg) (a : GReg) (b : GReg)
  /-- R111: Floating maximum, with special values as R85 gives. -/
  | fmax (f : FFmt) (d : GReg) (a : GReg) (b : GReg)
  /-- R111: Floating compare under eq, lt, le or un, landing an integer 1 or 0. -/
  | fcmp (c : FCond) (f : FFmt) (d : GReg) (a : GReg) (b : GReg)
  /-- R112: Conversion between floating and integer formats, as its sub-op selects. -/
  | fcvt (c : FCvt) (f : FFmt) (d : GReg) (a : GReg)
  /-- R111: Clears the sign bit, raising no flag. -/
  | fabs (f : FFmt) (d : GReg) (a : GReg)
  /-- R111: Inverts the sign bit, raising no flag. -/
  | fneg (f : FFmt) (d : GReg) (a : GReg)
  /-- R53: Reads a special register into gD in one bundle. -/
  | csrr (d : GReg) (r : SpecReg)
  /-- R412: CSRR of a tile counter (PBUB, FRZC, VHAZ, LATEV, EVDROP, EVANS), which snapshots it and clears it for every berth. -/
  | csrrRsc (d : GReg) (r : RscReg)
  /-- R53: Writes gD to a special register with no behaviour of its own, effective for the next bundle. -/
  | csrw (r : SpecReg) (d : GReg)
  /-- R98: CSRW to FMT0–FMT15, which traps on an illegal format combination. -/
  | csrwFmt (k : BitVec 4) (d : GReg)
  /-- R344: CSRW to SHAPE0–SHAPE3, which traps on thresholds that are out of order. -/
  | csrwShape (k : BitVec 2) (d : GReg)
  /-- R120: CSRW to CCTLc: writing 1 to RUN stops the chain or abandons its paused emission, and DONE is write-one-to-clear. -/
  | csrwCctl (c : BitVec 2) (d : GReg)
  /-- R327: CSRW to EVCTL: setting SRC sets T := TKCNT; LATE selects the late-event policy. -/
  | csrwEvctl (d : GReg)
  /-- R328: CSRW to EVWHk, which traps when ENTBASE + COUNT exceeds 8,192. -/
  | csrwEvwh (k : BitVec 2) (d : GReg)
  /-- R135: Offset-form load of 1 to 16 bytes, zero-extended, landing at LAND. -/
  | ld (wd : LdW) (l : Land) (d : GReg) (a : GReg) (ofs : Ofs)
  /-- R135: Indexed-form load with address gA + gB. -/
  | ldIndexed (wd : LdW) (l : Land) (d : GReg) (a : GReg) (b : GReg)
  /-- R135: Offset-form sign-extending load of 1, 2 or 4 bytes. -/
  | lds (wd : LdsW) (l : Land) (d : GReg) (a : GReg) (ofs : Ofs)
  /-- R135: Indexed-form sign-extending load. -/
  | ldsIndexed (wd : LdsW) (l : Land) (d : GReg) (a : GReg) (b : GReg)
  /-- R135: Offset-form store of 1 to 16 bytes. -/
  | st (wd : LdW) (d : GReg) (a : GReg) (ofs : Ofs)
  /-- R135: Indexed-form store. -/
  | stIndexed (wd : LdW) (d : GReg) (a : GReg) (b : GReg)
  /-- R148: Reads the lock of a tag granule. -/
  | tagld (l : Land) (d : GReg) (a : GReg) (ofs : Ofs)
  /-- R148: Sets the lock of a tag granule at its home and logs the change in the retag log. -/
  | tagst (d : GReg) (a : GReg) (ofs : Ofs)
  /-- R145: Multicast store of 8 bytes to every replica of the page's replica group. -/
  | mcst (d : GReg) (a : GReg) (ofs : Ofs)
  /-- R136: Loads 64 bytes into a v register through the linear view or from global memory. -/
  | ldv (l : Land) (d : VReg) (a : GReg) (ofs : Ofs)
  /-- R136: Stores a v register as 64 bytes. -/
  | stv (d : VReg) (a : GReg) (ofs : Ofs)
  /-- R136: Loads 64 bytes of the window through the swizzled view. -/
  | ldx (l : Land) (d : VReg) (a : GReg) (ofs : Ofs)
  /-- R136: Stores 64 bytes to the window through the swizzled view. -/
  | stx (d : VReg) (a : GReg) (ofs : Ofs)
  /-- R139: Scoped 8-byte load-acquire. -/
  | ldDAcq (sc : Scope) (l : Land) (d : GReg) (a : GReg) (ofs : Ofs)
  /-- R139: Scoped 8-byte store-release. -/
  | stDRel (sc : Scope) (d : GReg) (a : GReg) (ofs : Ofs)
  /-- R143: Unordered read-modify-write at Home(ea) that returns the old value. -/
  | amo (op : AmoOp) (wd : AmoW) (l : Land) (d : GReg) (a : GReg) (b : GReg)
  /-- R143: Scoped and ordered 8-byte read-modify-write, landing after 15 bundles. -/
  | amos (op : AmoOp) (sc : Scope) (o : AmoOrd) (d : GReg) (a : GReg) (b : GReg)
  /-- R140: Release and acquire of scope S taken together. -/
  | fence (sc : Scope)
  /-- R138: Applies the berth's scratchpad writes before any later access, joining the views. -/
  | vjoin
  /-- R142: Prefetches a sector into the tile data cache without a visible effect. -/
  | pref (a : GReg)
  /-- R141: Writes dirty bytes below the scope's serving level back to that level. -/
  | flush (sc : Scope) (a : GReg) (b : GReg)
  /-- R141: Flushes, then invalidates, the copies held below the scope's serving level. -/
  | inval (sc : Scope) (a : GReg) (b : GReg)
  /-- R144: Read-modify-write at Home(ea) that returns nothing. -/
  | red (op : RedOp) (wd : AmoW) (a : GReg) (b : GReg)
  /-- R154: Lane-wise addition. -/
  | vadd (p : PReg) (d : VReg) (a : VReg) (b : VReg)
  /-- R154: Lane-wise subtraction. -/
  | vsub (p : PReg) (d : VReg) (a : VReg) (b : VReg)
  /-- R154: Lane-wise multiplication. -/
  | vmul (p : PReg) (d : VReg) (a : VReg) (b : VReg)
  /-- R154: Lane-wise fused multiply-add. -/
  | vfma (p : PReg) (d : VReg) (a : VReg) (b : VReg)
  /-- R154: Lane-wise minimum. -/
  | vmin (p : PReg) (d : VReg) (a : VReg) (b : VReg)
  /-- R154: Lane-wise maximum. -/
  | vmax (p : PReg) (d : VReg) (a : VReg) (b : VReg)
  /-- R154: Lane-wise absolute value. -/
  | vabs (p : PReg) (d : VReg) (a : VReg)
  /-- R154: Lane-wise negation. -/
  | vneg (p : PReg) (d : VReg) (a : VReg)
  /-- R154: Lane-wise division, landing after 14 bundles on floating lanes and 20 on integer lanes. -/
  | vdiv (p : PReg) (d : VReg) (a : VReg) (b : VReg)
  /-- R155: Lane-wise square root, on floating lanes only. -/
  | vsqrt (p : PReg) (d : VReg) (a : VReg)
  /-- R155: Lane-wise reciprocal. -/
  | vrcp (p : PReg) (d : VReg) (a : VReg)
  /-- R155: Lane-wise reciprocal square root. -/
  | vrsq (p : PReg) (d : VReg) (a : VReg)
  /-- R155: Lane-wise 2^a. -/
  | vexp (p : PReg) (d : VReg) (a : VReg)
  /-- R155: Lane-wise log2(a). -/
  | vlog (p : PReg) (d : VReg) (a : VReg)
  /-- R158: Selects lanes of vA or vB by predicate. -/
  | vsel (p : PReg) (d : VReg) (a : VReg) (b : VReg)
  /-- R164: Converts lanes from type LT to type CT. -/
  | vcvt (p : PReg) (d : VReg) (a : VReg)
  /-- R156: Lane-wise bitwise AND. -/
  | vand (p : PReg) (d : VReg) (a : VReg) (b : VReg)
  /-- R156: Lane-wise bitwise OR. -/
  | vor (p : PReg) (d : VReg) (a : VReg) (b : VReg)
  /-- R156: Lane-wise bitwise XOR. -/
  | vxor (p : PReg) (d : VReg) (a : VReg) (b : VReg)
  /-- R156: Lane-wise left shift. -/
  | vshl (p : PReg) (d : VReg) (a : VReg) (b : VReg)
  /-- R156: Lane-wise logical right shift. -/
  | vshr (p : PReg) (d : VReg) (a : VReg) (b : VReg)
  /-- R156: Lane-wise arithmetic right shift. -/
  | vsra (p : PReg) (d : VReg) (a : VReg) (b : VReg)
  /-- R159: Pairwise-tree sum of the active lanes, combined with lane 0 of vB. -/
  | vreds (p : PReg) (d : VReg) (a : VReg) (b : VReg)
  /-- R159: Pairwise-tree maximum reduction. -/
  | vredmMax (p : PReg) (d : VReg) (a : VReg) (b : VReg)
  /-- R159: Pairwise-tree minimum reduction. -/
  | vredmMin (p : PReg) (d : VReg) (a : VReg) (b : VReg)
  /-- R160: Inclusive running sum in ascending lane order. -/
  | vscan (p : PReg) (d : VReg) (a : VReg)
  /-- R156: Lane-wise population count. -/
  | vpopc (p : PReg) (d : VReg) (a : VReg)
  /-- R161: Writes each active lane with the number of active lanes below it. -/
  | viota (p : PReg) (d : VReg)
  /-- R157: Compares lanes for equality into pD. -/
  | vcmpEq (p : PReg) (d : PReg) (a : VReg) (b : VReg)
  /-- R157: Compares lanes for inequality into pD. -/
  | vcmpNe (p : PReg) (d : PReg) (a : VReg) (b : VReg)
  /-- R157: Compares lanes for less-than into pD. -/
  | vcmpLt (p : PReg) (d : PReg) (a : VReg) (b : VReg)
  /-- R157: Compares lanes for less-or-equal into pD. -/
  | vcmpLe (p : PReg) (d : PReg) (a : VReg) (b : VReg)
  /-- R162: Permutes the lanes of vA by the indices in vB. -/
  | vperm (p : PReg) (d : VReg) (a : VReg) (b : VReg)
  /-- R162: Shuffles the bytes of vA by the indices in vB. -/
  | vshuf (p : PReg) (d : VReg) (a : VReg) (b : VReg)
  /-- R163: Broadcasts gB to every active lane. -/
  | vbcast (p : PReg) (d : VReg) (b : GReg)
  /-- R166: Splits 64 signed bytes into bit-plane words. -/
  | vpln (p : PReg) (d : VReg) (a : VReg) (b : GReg)
  /-- R166: Joins bit-plane words back into signed bytes. -/
  | vplj (p : PReg) (d : VReg) (a : VReg) (b : GReg)
  /-- R163: Moves lane gB of vA into gD. -/
  | vmovsG (d : GReg) (a : VReg) (b : GReg)
  /-- R163: Moves gB into lane gA of vD. -/
  | vmovsV (d : VReg) (a : GReg) (b : GReg)
  /-- R179: Queues a load of the stationary weight tile into the matrix array. -/
  | tlw (v : MVar) (m : MReg) (a : GReg)
  /-- R180: Queues a dense-tile multiply that accumulates into z(ZSEL). -/
  | tmm (v : MVar) (m : MReg) (a : GReg)
  /-- R185: Queues a multiply of expert-tagged rows, in tag runs, with buffer management. -/
  | tmmg (v : MVar) (m : MReg) (a : GReg)
  /-- R183: Queues the ranking of gate scores and the writing of rank and chosen masks. -/
  | trank (v : RVar) (m : MReg) (a : GReg)
  /-- R180: Queues a sparse-tile multiply into z(ZSEL). -/
  | tspz (v : MVar) (m : MReg) (a : GReg)
  /-- R182: Queues the drain of z(ZSEL) to Y, with an optional clear and an optional publication. -/
  | tdr (v : MVar) (m : MReg) (a : GReg)
  /-- R181: Queues the zeroing of z tile A[1:0]. -/
  | tz (m : MReg) (a : GReg)
  /-- R184: Writes SHAPE0–SHAPE3 from the window and marks the handle DONE. -/
  | tshape (m : MReg) (a : GReg)
  /-- R187: Queues an indexed gather. -/
  | gath (e : ESize) (m : MReg) (a : GReg)
  /-- R187: Queues an indexed scatter. -/
  | scat (e : ESize) (m : MReg) (a : GReg)
  /-- R186: Queues a linear copy on copy queue QSEL. -/
  | copy (e : ESize) (m : MReg) (a : GReg)
  /-- R186: Queues a two-dimensional strided copy. -/
  | copy2 (e : ESize) (m : MReg) (a : GReg)
  /-- R186: Queues a fill of memory with a pattern. -/
  | setm (e : ESize) (m : MReg) (a : GReg) (b : GReg)
  /-- R188: Enters the named queues and completes once every earlier operation in them is performed at scope S. -/
  | qfence (sc : Scope) (m : MReg) (a : GReg)
  /-- R189: Holds the berth until handle mH is neither QUEUED nor RUNNING. -/
  | mwait (m : MReg)
  /-- R190: Lands the handle's progress register in gD. -/
  | mprg (d : GReg) (m : MReg)
  /-- R190: Lands the handle's status register in gD, joining the macro's writes when it reads DONE. -/
  | mstat (d : GReg) (m : MReg)
  /-- R192: Resumes a suspended, faulted or stopped macro from PROG. -/
  | mres (m : MReg) (a : GReg)
  /-- R191: Requests a stop that leaves the macro KILLED. -/
  | mkill (m : MReg)
  /-- R201: Stages and publishes one message under a name and a tag. -/
  | pub (d : GReg) (a : GReg) (b : GReg)
  /-- R203: Subscribes a frame slot to a range of names; its status lands when the last summit has answered. -/
  | subNet (l : Land) (d : GReg) (a : GReg) (b : GReg)
  /-- R204: Removes an equal subscription. -/
  | unsub (l : Land) (d : GReg) (a : GReg) (b : GReg)
  /-- R211: Queues the steering of rows to expert names as an egress macro. -/
  | steer (d : GReg) (a : GReg) (b : GReg)
  /-- R212: Queues the combination of expert records back into token order as an egress macro. -/
  | merge (d : GReg) (a : GReg) (b : GReg)
  /-- R213: Writes the tile's 64 steer counters to the window and clears them. -/
  | stsnap (a : GReg)
  /-- R205: Sends a stream message once the send window allows it. -/
  | send (d : GReg) (a : GReg) (b : GReg)
  /-- R205: Grants flits of credit to a stream's sender. -/
  | grant (a : GReg) (b : GReg)
  /-- R220: Captures the barrier generation, releases, and sends the arrival to the object's home. -/
  | arrive (a : GReg)
  /-- R206: Allocates a frame on the tile and lands its index. -/
  | frame (l : Land) (d : GReg) (a : GReg) (b : GReg)
  /-- R207: Fills a slot of a frame on the tile. -/
  | fslot (d : GReg) (a : GReg) (b : GReg)
  /-- R208: Creates a frame of a template on the tile that the placement map gives. -/
  | spawn (a : GReg) (b : GReg)
  /-- R209: Forms a tag from a tag and an iteration increment. -/
  | tagop (l : Land) (d : GReg) (a : GReg) (b : GReg)
  /-- R214: EVCFG with A[63] = 0: loads parameter set A[5:0] from 32 window bytes. -/
  | evcfgPset (a : GReg) (b : GReg)
  /-- R214: EVCFG with A[63] = 1: writes value B to a range of neuron entries. -/
  | evcfgEntries (a : GReg) (b : GReg)
  /-- R215: Posts a weighted, timestamped event to a neuron. -/
  | evpost (d : GReg) (a : GReg) (b : GReg)
  /-- R216: Lands a neuron entry as stored. -/
  | evrd (l : Land) (d : GReg) (a : GReg)
  /-- R217: Brings a range of entries to the current tick, writes them to the window, and optionally clears them. -/
  | evsnap (a : GReg) (b : GReg)
  /-- R218: Advances the bank's tick and applies the events that are due. -/
  | evtick (a : GReg)
  /-- R44: The core selects an issuable berth and issues its bundle, checking it in decode order. -/
  | bundleIssue (t : Nat)
  /-- R39: Data of a load, atomic or network read arrives in the landing buffer and ends any freeze that waits for it. -/
  | resultArrival (t : Nat) (b : RespKind) (k : Nat)
  /-- R352: Once its pending results have arrived, a trapped or pre-empted berth is written to its save area and its frame becomes SAVED. -/
  | berthSave (t : Nat) (b : Fin 5)
  /-- R350: The supervisor berth enters at SVEC for the oldest queued trapped berth and the trap registers are written. -/
  | supervisorEntry (t : Nat)
  /-- R167: An engine starts the next macro of its queue. -/
  | macroStart (t : Nat) (q : Queue)
  /-- R171: An engine performs the next element of a macro, checking it first and then writing it whole. -/
  | macroElement (t : Nat) (q : Queue)
  /-- R201: The egress engine copies a staged message from scratchpad and injects its packet. -/
  | egressInject (t : Nat)
  /-- R242: The frame engine selects a ready token for a free job berth, ageing the tokens it overtakes. -/
  | tokenSelection (t : Nat)
  /-- R239: The frame engine applies one fill to a frame's slot. -/
  | frameFill (t : Nat)
  /-- R238: A SPAWN packet reaches its tile and creates a frame, installing its subscriptions, or waits for a free frame. -/
  | spawnArrival (k : Nat)
  /-- R122: A running counter chain makes one emission, creating a frame with an index token. -/
  | chainEmission (t : Nat) (c : BitVec 2)
  /-- R256: A router forwards a PUB packet to its matching ports and, at the summit, performs and retains it. -/
  | routerPub (k : Nat)
  /-- R258: A SUB packet installs or counts a name-match entry at a router on its route. -/
  | routerSub (k : Nat)
  /-- R258: An UNSUB packet decrements counts at a router and frees an entry left empty. -/
  | routerUnsub (k : Nat)
  /-- R263: A summit applies a SUB or REQ: it serves from retention, waits, or sends FALL, and answers. -/
  | summitApply (k : Nat)
  /-- R258: An ANS passes a router on its way back, undoing a TBLFULL packet's counts. -/
  | routerAnswer (k : Nat)
  /-- R199: A summit's answer reaches the issuing tile; the SUB or UNSUB status lands or is posted once every answer is in. -/
  | answerArrival (k : Nat)
  /-- R264: A quay receives FALL and starts the read of the block, unless a read for it is outstanding. -/
  | quayFall (k : Nat)
  /-- R264: The quay's block read completes and the quay publishes the block, or posts a fall-through fault. -/
  | quayFallPublish (q : Nat) (k : Nat)
  /-- R265: An ingress engine takes a whole packet, checks it, and deposits it under matching local records or discards it. -/
  | ingressPacket (k : Nat)
  /-- R269: The receiver deposits stream messages into the ring in SSEQ order. -/
  | strmDeposit (t : Nat) (k : Nat)
  /-- R268: A GRANT reaches the stream's summit and is held or forwarded to the sender. -/
  | grantAtSummit (k : Nat)
  /-- R268: An OPEN pairs the sender with the receiver and sets up the stream's route. -/
  | openAtSummit (k : Nat)
  /-- R205: A forwarded grant adds to the sender tile's window counter. -/
  | grantArrival (k : Nat)
  /-- R200: A stale-generation report reaches the origin, which re-injects the packet or ends the operation. -/
  | staleArrival (k : Nat)
  /-- R266: An ACK frees the staged copy, or, with STATUS 1, makes the origin resend it. -/
  | ackArrival (k : Nat)
  /-- R266: 65,536 cycles pass without an ACK; the packet is resent, or after four resends a link-loss record is posted. -/
  | resendTimeout (t : Nat) (k : Nat)
  /-- R261: A retained publication's KEEP ticks have passed and it is no longer retained. -/
  | retentionExpiry (sp : Nat) (k : Nat)
  /-- R379: A free output port grants a whole packet by promotion, VC0 priority or weighted round-robin: port `p` of mesh router `r`, or, where
  `p` is none, the Niesk port of quay `r` (R382). -/
  | portArbitration (r : Nat) (p : Option Port)
  /-- R385: A link receiver accepts a flit, or discards it and sends NAK. -/
  | linkFlitReceive (r : Nat) (p : Port) (wire : Option (BitVec 256 × BitVec 34))
  /-- R385: A sender receives NAK and resends from ACKSEQ. -/
  | linkNak (r : Nat) (p : Port)
  /-- R385: ACKTO cycles pass without progress and the sender resends from its oldest unacknowledged flit. -/
  | linkAckTimeout (r : Nat) (p : Port)
  /-- R374: The field marks the routers that reach a slipway, writes detour tables and isolates unreachable tiles. -/
  | reachabilitySweep (f : Nat)
  /-- R394: A Niesk port receives a frame, checks it, rewrites the packet headers and delivers the flits. -/
  | nieskFrameReceive (q : Nat) (fr : NieskFrame)
  /-- R393: DEADTO passes without an acknowledgement and the port is declared dead, posting record 0x23. -/
  | nieskPortDead (q : Nat)
  /-- R397: A reduction node takes a partial, adds what the order allows, and publishes the result when the set is complete. -/
  | partialArrival (k : Nat)
  /-- R308: An LLC bank performs an access or a read-modify-write on a sector. -/
  | homeAccess (a : HomeAct)
  /-- R309: A channel's base-die ALU performs a memory-side operation, combining queued REDs. -/
  | baseDieAlu (k : Nat)
  /-- R313: A translation miss joins a walk in progress, takes a walker, or queues at its quay: miss `k` of a tile, or packet `k` at a quay. -/
  | walkRequest (a : WalkAct) (k : Nat)
  /-- R313: A walk ends and answers every joined miss, or raises a translation fault. -/
  | walkDone (q : Nat) (k : Nat)
  /-- R317: Every 1,024 cycles a walk held for MIG re-reads its leaf entry, and proceeds once MIG is 0. -/
  | migRecheck (q : Nat) (k : Nat)
  /-- R220: An arrival is applied at the barrier's home: it is counted and may complete the barrier, or raises the stale-barrier fault. -/
  | arriveAtHome (k : Nat)
  /-- R221: A completion notice sets the wait latch of the counted binding, or the latch bit of its save area. -/
  | barrierNoticeArrival (k : Nat)
  /-- R361: A reply notice sets the named berth's wait latch. -/
  | replyNoticeArrival (k : Nat)
  /-- R326: The tick generator increments TKCNT, and banks with SRC = 1 advance T and apply the events that are due. -/
  | tick
  /-- R333: An EVENT packet reaches a bank and is queued, applied as late, dropped, or made to wait for space. -/
  | eventArrival (k : Nat)
  /-- R335: The bank applies the least-keyed due event to its entry, with leak, integration and firing. -/
  | eventApply (t : Nat)
  /-- R340: A claim answer reaches the origin, which writes the expert byte, re-claims the next-ranked expert, or counts EVANS. -/
  | claimAnswerArrival (k : Nat)
  /-- R364: An uncorrectable error, supervisor trap or poisoned read stops the tile and posts records 0x1E and 0x1F. -/
  | tileFault (t : Nat) (c : TileFaultCause)
  /-- R365: A single-bit error is corrected and counted, posting record 0x20 at the threshold. -/
  | softErrorCorrected (t : Nat) (u : SoftError)
  /-- R372: A tile loses power; its router poisons every packet in progress. -/
  | tilePowerLoss (t : Nat)
  /-- R368: Every 256 cycles the field sums outstanding packets, events and detached macros per job and unit. -/
  | quiescenceSweep
  /-- R233: JTCMD 1: claims the spurs of the bitmap, powers them, and starts their scrub. -/
  | allot (v : Word)
  /-- R233: The scrub of the allotment completes and STATE becomes READY. -/
  | scrubDone (j : Nat)
  /-- R235: JTCMD 2: checks the tables, copies the image, writes windows and range entries, and creates the root frames. -/
  | start (v : Word)
  /-- R367: JTCMD 3: gates the sources of the named unit (phase G1) and stops its berths (G2). -/
  | gate (v : Word)
  /-- R367: Every berth of the unit has stopped and its results have arrived; the drain (G3) begins. -/
  | gateStopped (j : Nat)
  /-- R369: Every save block is written; the unit is gated (G5) and BUSY clears. -/
  | gateSaveDone (j : Nat)
  /-- R370: JTCMD 4: restores the unit from its save blocks, re-sends subscriptions and releases held packets. -/
  | resume (v : Word)
  /-- R346: RESUME of scope tile with JTMOVE.V = 1: re-creates the saved tile's frames and berths on TGT. -/
  | resumeMove (v : Word)
  /-- R232: JTCMD 5: stops and discards every berth, macro, frame, entry and packet of the job. -/
  | jobEnd (v : Word)
  /-- R232: The job reaches FREE; its spurs are freed and their tiles power-gated. -/
  | endDone (j : Nat)
  /-- R232: A JTCMD write with an unassigned command or scope is refused with ERR 4. -/
  | jtcmdUnassigned (v : Word)
  /-- R375: A RETIRE write power-gates the tile, marks its router dead, runs a sweep, logs it and posts record 0x21. -/
  | retire (v : Word)
  /-- R375: A GENADV write of GEN + 1 starts a generation advance at every router. -/
  | genadv (v : Word)
  /-- R272: A tile re-reads its tables and re-sends its subscriptions and stopped packets under the new generation. -/
  | tableRefresh (t : Nat)
  /-- R375: Every tile has refreshed; JTGEN takes the new value and BUSY clears. -/
  | genadvDone
  /-- R315: A SHOOT write starts a shootdown of the job's translations, with an optional write-back. -/
  | shoot (v : Word)
  /-- R315: The shootdown completes and SHOOT.BUSY clears. -/
  | shootDone
  /-- R319: A CSNAP write snapshots and clears every channel's counters into memory. -/
  | csnap (v : Word)
  /-- R304: A write to a channel-placement range, refused when it sets V with invalid bounds. -/
  | channelRangeWrite (r : BitVec 6) (hi : Bool) (v : Word)
  /-- R326: A PER write, refused below 64, that takes effect at the next tick. -/
  | tickPeriodWrite (v : Word)
  /-- R358: Writing ORPHQ nonzero posts the pending wafer-level records in order. -/
  | orphqWrite (v : Word)
  /-- R361: An RNOTE write sends a reply notice to a berth of a job's tile. -/
  | rnote (v : Word)
  /-- R356: A JTWPk write, refused for an invalid range, that takes effect everywhere within 1,000 cycles. -/
  | watchpointWrite (k : BitVec 3) (hi : Bool) (v : Word)
  /-- R383: A weight write, refused for weight 0, applied at each port's next credit reload. -/
  | arbwWrite (f : Nat) (v : Word)
  /-- R383: An ageing-limit write that promotes at once every packet whose age reaches the new A. -/
  | arbaWrite (f : Nat) (v : Word)
  /-- R391: A module identifier write, refused while any job is running or gated. -/
  | modidWrite (v : Word)
  /-- R405: A DBGCTL write of STOP = 1 puts the tile in a precise stop. -/
  | debugStop (t : Nat) (v : Word)
  /-- R405: A DBGCTL write of STOP = 0 releases the tile from any precise stop. -/
  | debugRelease (t : Nat) (v : Word)
  /-- R407: A DBGCTL write of DUMP = 1 during a stop starts a dump of frame records. -/
  | debugDump (t : Nat) (v : Word)
  /-- R407: The dump records are performed at .sys; COUNT is set and DUMP clears. -/
  | dumpDone (t : Nat)
  /-- R410: Every 2^PLOG cycles the tile records a sample of the next berth in BMASK. -/
  | sample (t : Nat)
  /-- R411: A marker walk writes a type-6 record at a tile and moves to the origin of the last fill. -/
  | criticalPathStep (k : Nat)
  /-- R408: Every 8 cycles a tile's trace queue sends one record toward the field's trace port. -/
  | traceDrain (t : Nat)
  /-- R408: The trace port writes one record into the field's ring, or drops it when the ring is full. -/
  | traceRingWrite (f : Nat)
  /-- R413: Every 256 cycles the field adds weighted activity to its energy totals and sets the budget flags. -/
  | energyAddition (f : Nat)
  /-- R415: A new energy window begins and every budget flag clears. -/
  | energyWindowStart (f : Nat)
  /-- R432: The module's draw averaged over 1 ms passes 38 kW or 40 kW, and SOFT or HARD is held in every field. -/
  | powerOverload (hard : Bool)
  /-- R432: The supply stays below 48 V for 1 ms; every field is powered off and volatile state is lost. -/
  | undervoltage
  /-- R433: A sensor passes 95 °C or 105 °C; the controller holds HARD or powers off every field, and posts record 0x24. -/
  | thermalEvent (f : Nat) (tenths : Nat)
  /-- R426: Applying power runs boot steps 1 to 6, ending with the Filhus cores released. -/
  | powerOn
  /-- R429: CRCMD 1: writes a signed attestation report over a nonce. -/
  | attest (v : Word)
  /-- R428: CRCMD 2: verifies a feature token and stores it for the next boot. -/
  | token (v : Word)
  /-- R428: CRCMD 3: writes the repair words and the retirement log. -/
  | map (v : Word)
  /-- R428: CRCMD 4: writes the serial, the device public key and Jouren's signature. -/
  | cert (v : Word)
  /-- R428: CRCMD 5: writes the boot step and cause, the token result and the temperatures. -/
  | status (v : Word)
  /-- R428: An unassigned cairn command ends with RES 6. -/
  | crcmdUnassigned (v : Word)
  /-- R430: A management-port frame carries a cairn command and receives a reply. -/
  | mgmtRequest (m : MgmtFrame)
  /-- R431: An inbound PCIe transaction reaches the memory tiers through the IOMMU, or is answered Unsupported Request. -/
  | pcieInbound (x : PcieTx)
  /-- R12: A Filhus read of a snapshot-and-clear counter returns its value and clears it atomically. -/
  | rscRead (addr : Nat)
  /-- R11: A write to a Filhus-visible register with no behaviour of its own, checked under R13. -/
  | registerWrite (addr : Nat) (v : Word)
  /-- R377: A write acknowledgement (MKIND 3) from a home reaches the tile and completes the store it answers, letting a pending release or FENCE finish. -/
  | writeAcknowledgement (t : Nat) (k : Nat)
  /-- R319: The snapshot of every channel's counters has been written and CSNAP.BUSY clears. -/
  | csnapDone
  /-- R432: The module's 1 ms average draw falls back below 40 kW or 38 kW and the cairn controller stops holding HARD or SOFT in every field. -/
  | powerOverloadEnd (hard : Bool)
  /-- R433: A field's sensor falls below 90 °C and the cairn controller stops holding HARD in that field. -/
  | thermalHoldEnd (f : Nat)
  /-- R392: A Niesk port's link comes up and its peer answers, setting NPSTAT.UP. -/
  | nieskPortUp (q : Nat) (peer : Option (BitVec 19))
  deriving DecidableEq, Repr

end Sys2Proof
end

