-- ==== Sys2Proof/WellFormed.lean ====
section
/-!
DEFINITION. WellFormed.lean: which terms of `Instr` are instructions of the machine: a slot instruction that its row
of the table of operations stands for, or a step whose arguments lie in their ranges (R5, R231, R301).
-/
namespace Sys2Proof

/-- A logical tile number, 17 bits with an index of at most 1,087 (R5). -/
def okTile (t : Nat) : Bool := decide (t < 131072) && decide (t % 2048 < 1088)
/-- A field number (R5). -/
def okField (f : Nat) : Bool := decide (f < 64)
/-- A quay or Niesk port number (R301). -/
def okQuay (q : Nat) : Bool := decide (q < 32)
/-- An egress buffer: a tile's, a quay's by its code, or that of reduction node `n` (router × 8 + port) by 2^17 + n (R251, R396). -/
def okBuffer (t : Nat) : Bool :=
  okTile t || (decide (0x7E0 ≤ t) && decide (t < 0x800)) || (decide (2 ^ 17 ≤ t) && decide (t < 2 ^ 17 + 8 * 131072))
/-- A job identifier (R231). -/
def okJob (j : Nat) : Bool := decide (1 ≤ j) && decide (j < 4096)
/-- A spur number (R233). -/
def okSpur (s : Nat) : Bool := decide (s < 4096)

/-- CSRR of a register that reading does not clear (R53, R66). -/
def okCsrr : SpecReg → Bool
  | .pbub | .frzc | .vhaz | .latev | .evdrop | .evans => false
  | _ => true

/-- CSRW of a register with no behaviour of its own (R53). -/
def okCsrw : SpecReg → Bool
  | .fmt _ | .shape _ | .cctl _ | .evctl | .evwh _ => false
  | _ => true

/-- What a home is asked to do, in range (R307, R308). -/
def okHome : HomeAct → Bool
  | .start t _ => okTile t
  | .burst t _ => okTile t
  | .slice _ => true
  | .queued _ => true
  | .evictTile t _ => okTile t
  | .evictSpur sp _ => okSpur sp
  | .filhus pa bytes => decide (pa + bytes.length ≤ 2 ^ 44)
  | .filhusLoad pa n => decide (pa + n ≤ 2 ^ 44) && decide (n ≤ 8)
  | .filhusAmo _ _ pa _ _ => decide (pa + 8 ≤ 2 ^ 44)
  | .filhusFence => true
  | .moduleLoad pa n => decide (pa + n ≤ 2 ^ 44)
  | .moduleWrite _ pa bytes => decide (pa + bytes.length ≤ 2 ^ 44)
  | .moduleAmo _ _ _ pa _ _ => decide (pa + 8 ≤ 2 ^ 44)
  | .farWrite key bytes => decide (2 ^ 44 ≤ key) && decide (key + bytes.length ≤ 2 ^ 64)

/-- Well-formed instructions. -/
def wellFormed : Instr → Bool
  | .call d _ => d != 0
  | .csrr _ r => okCsrr r
  | .csrw r _ => okCsrw r
  | .bundleIssue t => okTile t
  | .berthSave t _ => okTile t
  | .supervisorEntry t => okTile t
  | .macroStart t _ => okTile t
  | .macroElement t _ => okTile t
  | .egressInject t => okTile t
  | .tokenSelection t => okTile t
  | .frameFill t => okTile t
  | .chainEmission t _ => okTile t
  | .quayFallPublish q _ => okQuay q
  | .strmDeposit t _ => okTile t
  | .resendTimeout t _ => okBuffer t
  | .retentionExpiry sp _ => okSpur sp
  | .portArbitration r (some _) => okTile r
  | .portArbitration q none => okQuay q
  | .linkFlitReceive r _ _ => okTile r
  | .linkNak r _ => okTile r
  | .linkAckTimeout r _ => okTile r
  | .reachabilitySweep f => okField f
  | .nieskFrameReceive q _ => okQuay q
  | .nieskPortDead q => okQuay q
  | .homeAccess a => okHome a
  | .walkRequest (.ask t) _ => okTile t
  | .resultArrival t _ _ => okTile t
  | .writeAcknowledgement t _ => okTile t
  | .walkDone q _ => okQuay q
  | .migRecheck q _ => okQuay q
  | .eventApply t => okTile t
  | .tileFault t _ => okTile t
  | .softErrorCorrected t _ => okTile t
  | .tilePowerLoss t => okTile t
  | .scrubDone j => okJob j
  | .gateStopped j => okJob j
  | .gateSaveDone j => okJob j
  | .endDone j => okJob j
  | .tableRefresh t => okTile t
  | .arbwWrite f _ => okField f
  | .arbaWrite f _ => okField f
  | .debugStop t _ => okTile t
  | .debugRelease t _ => okTile t
  | .debugDump t _ => okTile t
  | .dumpDone t => okTile t
  | .sample t => okTile t
  | .traceDrain t => okTile t
  | .traceRingWrite f => okField f
  | .energyAddition f => okField f
  | .energyWindowStart f => okField f
  | .thermalEvent f _ => okField f
  | .pcieInbound x => decide (x.port < 4)
  | .thermalHoldEnd f => okField f
  | .nieskPortUp q _ => okQuay q
  | _ => true

end Sys2Proof
end

