-- ==== Sys2Proof/Decode.lean ====
section
/-!
DEFINITION. Decode.lean: the decoder of slot words and the encoder, both written from the encoding tables of
R22, R23, R47 to R66, R104, R149, R175 and R194. Bit 31, the end bit E, belongs to the bundle's framing: the
decoder does not look at it and the encoder leaves it 0.
-/
namespace Sys2Proof

/-- Why a slot word stands for no instruction (R44 step 3, R47, R48, R53). -/
inductive DecodeErr
  /-- MAJ 0b11110 (R47). -/
  | unassignedMajor
  /-- A MIN value, kind, scope, sub-op or variant code that no table shows (R48). -/
  | unassignedCell
  /-- A special-register number that R66 does not list (R53). -/
  | unassignedRegister
  /-- A nonzero reserved field (R48). -/
  | reservedBits
  deriving DecidableEq, Repr

/-! ### Fields of the slot word (R22, R23) -/

/-- E, bit 31. -/
def fEnd (w : SlotWord) : Bool := w.getLsbD 31
/-- MAJ, bits 30:26. -/
def fMaj (w : SlotWord) : BitVec 5 := w.extractLsb' 26 5
/-- D, bits 25:20. -/
def fD (w : SlotWord) : BitVec 6 := w.extractLsb' 20 6
/-- A, bits 19:14. -/
def fA (w : SlotWord) : BitVec 6 := w.extractLsb' 14 6
/-- B, bits 13:8. -/
def fB (w : SlotWord) : BitVec 6 := w.extractLsb' 8 6
/-- MIN, bits 7:0. -/
def fMin (w : SlotWord) : BitVec 8 := w.extractLsb' 0 8
/-- The RI immediate, bits 13:0. -/
def fImm (w : SlotWord) : BitVec 14 := w.extractLsb' 0 14
/-- The CB displacement, bits 19:0. -/
def fDisp (w : SlotWord) : BitVec 20 := w.extractLsb' 0 20
/-- VAL of IMX, bits 25:0. -/
def fVal (w : SlotWord) : BitVec 26 := w.extractLsb' 0 26
/-- The special-register number, bits 19:8. -/
def fSpec (w : SlotWord) : BitVec 12 := w.extractLsb' 8 12

/-- The high four bits of MIN: LAND, the predicate field or the FLT op. -/
def hi4 (m : BitVec 8) : BitVec 4 := m.extractLsb' 4 4
/-- The low four bits of MIN: an access kind or an operation. -/
def lo4 (m : BitVec 8) : BitVec 4 := m.extractLsb' 0 4
/-- The low three bits of MIN: a scope, sub-op or variant. -/
def lo3 (m : BitVec 8) : BitVec 3 := m.extractLsb' 0 3
/-- The low five bits of a register field: a v register. -/
def lo5 (d : BitVec 6) : BitVec 5 := d.extractLsb' 0 5
/-- The high bit of a register field, reserved where the field names a v register (R25). -/
def top1 (d : BitVec 6) : BitVec 1 := d.extractLsb' 5 1

/-! ### Codes of the modifiers -/

/-- Scope codes (R49). -/
def Scope.code : Scope → BitVec 3
  | .berth => 0
  | .tile => 1
  | .spur => 2
  | .field => 3
  | .wafer => 4
  | .sys => 5
/-- The modifier a code stands for. -/
def Scope.ofCode (c : BitVec 3) : Option Scope :=
  match c.toNat with
  | 0 => some .berth
  | 1 => some .tile
  | 2 => some .spur
  | 3 => some .field
  | 4 => some .wafer
  | 5 => some .sys
  | _ => none

/-- FCMP sub-ops (R56). -/
def FCond.code : FCond → BitVec 3
  | .eq => 0
  | .lt => 1
  | .le => 2
  | .un => 3
/-- The modifier a code stands for. -/
def FCond.ofCode (c : BitVec 3) : Option FCond :=
  match c.toNat with
  | 0 => some .eq
  | 1 => some .lt
  | 2 => some .le
  | 3 => some .un
  | _ => none

/-- FCVT sub-ops (R56). -/
def FCvt.code : FCvt → BitVec 3
  | .other => 0
  | .i64 => 1
  | .ui64 => 2
  | .fi64 => 3
  | .fui64 => 4
  | .bf16 => 5
  | .fp16 => 6
/-- The modifier a code stands for. -/
def FCvt.ofCode (c : BitVec 3) : Option FCvt :=
  match c.toNat with
  | 0 => some .other
  | 1 => some .i64
  | 2 => some .ui64
  | 3 => some .fi64
  | 4 => some .fui64
  | 5 => some .bf16
  | 6 => some .fp16
  | _ => none

/-- BRN.p conditions (R54). -/
def PCond.code : PCond → BitVec 2
  | .p => 0
  | .np => 1
  | .any => 2
  | .none => 3
/-- The modifier a code stands for. -/
def PCond.ofCode (c : BitVec 2) : Option PCond :=
  match c.toNat with
  | 0 => some .p
  | 1 => some .np
  | 2 => some .any
  | 3 => some .none
  | _ => none

/-- AMO op codes (R60). -/
def AmoOp.code : AmoOp → BitVec 3
  | .add => 0
  | .min => 1
  | .max => 2
  | .and => 3
  | .or => 4
  | .xor => 5
  | .swp => 6
  | .cas => 7
/-- The modifier a code stands for. -/
def AmoOp.ofCode (c : BitVec 3) : Option AmoOp :=
  match c.toNat with
  | 0 => some .add
  | 1 => some .min
  | 2 => some .max
  | 3 => some .and
  | 4 => some .or
  | 5 => some .xor
  | 6 => some .swp
  | 7 => some .cas
  | _ => none

/-- AMOS ordering codes (R60). -/
def AmoOrd.code : AmoOrd → BitVec 2
  | .acq => 1
  | .rel => 2
  | .ar => 3
/-- The modifier a code stands for. -/
def AmoOrd.ofCode (c : BitVec 2) : Option AmoOrd :=
  match c.toNat with
  | 1 => some .acq
  | 2 => some .rel
  | 3 => some .ar
  | _ => none

/-- Matrix variants (R63). -/
def MVar.code : MVar → BitVec 3
  | .bf16 => 0
  | .fp16 => 1
  | .fp32 => 2
  | .ft => 3
  | .f0 => 4
/-- The modifier a code stands for. -/
def MVar.ofCode (c : BitVec 3) : Option MVar :=
  match c.toNat with
  | 0 => some .bf16
  | 1 => some .fp16
  | 2 => some .fp32
  | 3 => some .ft
  | 4 => some .f0
  | _ => none

/-- TRANK variants (R63). -/
def RVar.code : RVar → BitVec 3
  | .bf16 => 0
  | .fp16 => 1
  | .fp32 => 2
/-- The modifier a code stands for. -/
def RVar.ofCode (c : BitVec 3) : Option RVar :=
  match c.toNat with
  | 0 => some .bf16
  | 1 => some .fp16
  | 2 => some .fp32
  | _ => none

/-- Element sizes (R63). -/
def ESize.code : ESize → BitVec 3
  | .e1 => 0
  | .e2 => 1
  | .e4 => 2
  | .e8 => 3
  | .e16 => 4
  | .e64 => 5
/-- The modifier a code stands for. -/
def ESize.ofCode (c : BitVec 3) : Option ESize :=
  match c.toNat with
  | 0 => some .e1
  | 1 => some .e2
  | 2 => some .e4
  | 3 => some .e8
  | 4 => some .e16
  | 5 => some .e64
  | _ => none

/-- The format bit of an FLT cell (R56). -/
def FFmt.code : FFmt → BitVec 1
  | .f32 => 0
  | .f64 => 1
/-- The format that the bit names. -/
def FFmt.ofCode (c : BitVec 1) : FFmt := if c = 0 then .f32 else .f64

/-- The width bit of AMO and RED (R60, R61). -/
def AmoW.code : AmoW → BitVec 1
  | .w => 0
  | .d => 1
/-- The width that the bit names. -/
def AmoW.ofCode (c : BitVec 1) : AmoW := if c = 0 then .w else .d

/-- The RED op codes (R61). -/
def RedOp.code : RedOp → BitVec 3
  | .add => 0
  | .min => 1
  | .max => 2
  | .and => 3
  | .or => 4
  | .xor => 5

/-- LD kinds (R57). -/
def LdW.ldKind : LdW → BitVec 4
  | .b => 0
  | .h => 1
  | .w => 2
  | .d => 3
  | .q => 4
/-- ST kinds (R57). -/
def LdW.stKind : LdW → BitVec 4
  | .b => 8
  | .h => 9
  | .w => 10
  | .d => 11
  | .q => 12
/-- LDS kinds (R57). -/
def LdsW.kind : LdsW → BitVec 4
  | .b => 5
  | .h => 6
  | .w => 7

/-- Special-register numbers (R66, R120, R328, R351, R416). -/
def SpecReg.num : SpecReg → BitVec 12
  | .tag => 0x000
  | .fptr => 0x001
  | .berthno => 0x002
  | .jobid => 0x003
  | .lc k => 1#10 ++ k
  | .fflags => 0x008
  | .fctl => 0x009
  | .vlt => 0x00A
  | .fmt k => 1#8 ++ k
  | .shape k => 8#10 ++ k
  | .cctl c => 2#7 ++ c ++ 0#3
  | .clim c => 2#7 ++ c ++ 1#3
  | .ctmpl c => 2#7 ++ c ++ 2#3
  | .ctag c => 2#7 ++ c ++ 3#3
  | .cpos c => 2#7 ++ c ++ 4#3
  | .cemit c => 2#7 ++ c ++ 5#3
  | .evctl => 0x060
  | .evnow => 0x061
  | .evqlen => 0x062
  | .evdrop => 0x063
  | .evans => 0x064
  | .evwl k => 13#9 ++ k ++ 0#1
  | .evwh k => 13#9 ++ k ++ 1#1
  | .pbub => 0x080
  | .frzc => 0x081
  | .vhaz => 0x082
  | .latev => 0x083
  | .cyc => 0x084
  | .retb => 0x085
  | .enjob => 0x0A0
  | .enfld => 0x0A1
  | .svec => 0x100
  | .scause => 0x101
  | .sbad => 0x102
  | .sdet => 0x103
  | .sberth => 0x104
  | .ssave => 0x105
  | .sstat => 0x106
  | .esoftc => 0x180
  | .ehardc => 0x181
  | .ejlimc => 0x182
  | .estatc => 0x183
  | .ewpos => 0x184

/-- The special register that a number names; `none` for an unassigned number (R53, R66). -/
def SpecReg.ofNum (n : BitVec 12) : Option SpecReg :=
  match (n.extractLsb' 4 8).toNat with
  | 0x00 =>
    match (n.extractLsb' 0 4).toNat with
    | 0 => some .tag
    | 1 => some .fptr
    | 2 => some .berthno
    | 3 => some .jobid
    | 4 => some (.lc 0)
    | 5 => some (.lc 1)
    | 6 => some (.lc 2)
    | 7 => some (.lc 3)
    | 8 => some .fflags
    | 9 => some .fctl
    | 10 => some .vlt
    | _ => none
  | 0x01 => some (.fmt (n.extractLsb' 0 4))
  | 0x02 => if n.extractLsb' 2 2 = 0 then some (.shape (n.extractLsb' 0 2)) else none
  | 0x04 => chain
  | 0x05 => chain
  | 0x06 =>
    if n.getLsbD 3 then
      some (if n.getLsbD 0 then .evwh (n.extractLsb' 1 2) else .evwl (n.extractLsb' 1 2))
    else
      match (n.extractLsb' 0 3).toNat with
      | 0 => some .evctl
      | 1 => some .evnow
      | 2 => some .evqlen
      | 3 => some .evdrop
      | 4 => some .evans
      | _ => none
  | 0x08 =>
    match (n.extractLsb' 0 4).toNat with
    | 0 => some .pbub
    | 1 => some .frzc
    | 2 => some .vhaz
    | 3 => some .latev
    | 4 => some .cyc
    | 5 => some .retb
    | _ => none
  | 0x0A =>
    match (n.extractLsb' 0 4).toNat with
    | 0 => some .enjob
    | 1 => some .enfld
    | _ => none
  | 0x10 =>
    match (n.extractLsb' 0 4).toNat with
    | 0 => some .svec
    | 1 => some .scause
    | 2 => some .sbad
    | 3 => some .sdet
    | 4 => some .sberth
    | 5 => some .ssave
    | 6 => some .sstat
    | _ => none
  | 0x18 =>
    match (n.extractLsb' 0 4).toNat with
    | 0 => some .esoftc
    | 1 => some .ehardc
    | 2 => some .ejlimc
    | 3 => some .estatc
    | 4 => some .ewpos
    | _ => none
  | _ => none
where
  /-- The counter-chain registers, 0x040 + 8c + j (R120). -/
  chain : Option SpecReg :=
    let c := n.extractLsb' 3 2
    match (n.extractLsb' 0 3).toNat with
    | 0 => some (.cctl c)
    | 1 => some (.clim c)
    | 2 => some (.ctmpl c)
    | 3 => some (.ctag c)
    | 4 => some (.cpos c)
    | 5 => some (.cemit c)
    | _ => none

/-- The register that an RSC register name stands for. -/
def RscReg.spec : RscReg → SpecReg
  | .pbub => .pbub
  | .frzc => .frzc
  | .vhaz => .vhaz
  | .latev => .latev
  | .evdrop => .evdrop
  | .evans => .evans

/-! ### The decoder -/

/-- An instruction whose reserved fields must be 0 (R48). -/
def rsv (ok : Bool) (i : Instr) : Except DecodeErr Instr := if ok then .ok i else .error .reservedBits

/-- An instruction behind a code that may be unassigned (R48). -/
def coded {α : Type} (c : Option α) (f : α → Except DecodeErr Instr) : Except DecodeErr Instr :=
  match c with
  | some x => f x
  | none => .error .unassignedCell

/-- CTL cells (R51, R52). -/
def decodeCtl (d a b : BitVec 6) (m : BitVec 8) : Except DecodeErr Instr :=
  match m.toNat with
  | 0x00 => rsv (d == 0 && a == 0 && b == 0) .nop
  | 0x01 => rsv (d == 0 && b == 0) (.jmpi a)
  | 0x02 => rsv (d == 0 && b == 0) (.ret a)
  | 0x03 => rsv (d == 0 && a == 0 && b == 0) .yield
  | 0x04 => rsv (d == 0 && a == 0 && b == 0) .done
  | 0x05 => rsv (d == 0 && b == 0) (.trap a)
  | 0x06 => rsv (d == 0) (.kchain a b)
  | 0x10 => rsv (d == 0) (.sys a b)
  | 0x11 => rsv (d == 0 && b == 0) (.brk a)
  | 0x12 => rsv (d == 0 && a == 0 && b == 0) .wfe
  | 0x18 => rsv (d == 0 && a == 0 && b == 0) .eret
  | 0x19 => rsv (d == 0) (.tlbi a b)
  | 0x1A => rsv (d == 0 && b == 0) (.tpre a)
  | 0x1B => rsv (d == 0 && a == 0 && b == 0) .halt
  | _ => .error .unassignedCell

/-- ALU cells (R55, R106 to R109). -/
def decodeAlu (d a b : BitVec 6) (m : BitVec 8) : Except DecodeErr Instr :=
  match m.toNat with
  | 0x00 => .ok (.add d a b)
  | 0x01 => .ok (.sub d a b)
  | 0x02 => .ok (.mul d a b)
  | 0x03 => .ok (.mulh d a b)
  | 0x04 => .ok (.mulhu d a b)
  | 0x05 => .ok (.div d a b)
  | 0x06 => .ok (.divu d a b)
  | 0x07 => .ok (.rem d a b)
  | 0x08 => .ok (.remu d a b)
  | 0x09 => .ok (.and d a b)
  | 0x0A => .ok (.or d a b)
  | 0x0B => .ok (.xor d a b)
  | 0x0C => .ok (.andn d a b)
  | 0x0D => .ok (.sll d a b)
  | 0x0E => .ok (.srl d a b)
  | 0x0F => .ok (.sra d a b)
  | 0x10 => .ok (.ror d a b)
  | 0x11 => rsv (b == 0) (.clz d a)
  | 0x12 => rsv (b == 0) (.ctz d a)
  | 0x13 => rsv (b == 0) (.popc d a)
  | 0x14 => .ok (.min d a b)
  | 0x15 => .ok (.max d a b)
  | 0x16 => .ok (.minu d a b)
  | 0x17 => .ok (.maxu d a b)
  | 0x18 => .ok (.slt d a b)
  | 0x19 => .ok (.sltu d a b)
  | 0x1A => .ok (.sel d a b)
  | 0x1B => .ok (.ext d a b)
  | 0x1C => .ok (.extu d a b)
  | 0x1D => .ok (.ins d a b)
  | 0x1E => .ok (.madd d a b)
  | 0x1F => rsv (b == 0) (.mov d a)
  | 0x20 => rsv (b == 0) (.xmov d a)
  | 0x21 => .ok (.sllImm d a b)
  | 0x22 => .ok (.srlImm d a b)
  | 0x23 => .ok (.sraImm d a b)
  | 0x24 => .ok (.rorImm d a b)
  | _ => .error .unassignedCell

/-- FLT cells: op, format and sub-op (R56). -/
def decodeFlt (d a b : BitVec 6) (m : BitVec 8) : Except DecodeErr Instr :=
  let f := FFmt.ofCode (m.extractLsb' 3 1)
  let sub := lo3 m
  let plain (i : Instr) : Except DecodeErr Instr := if sub = 0 then .ok i else .error .unassignedCell
  let unary (i : Instr) : Except DecodeErr Instr := if sub = 0 then rsv (b == 0) i else .error .unassignedCell
  match (hi4 m).toNat with
  | 0x0 => plain (.fadd f d a b)
  | 0x1 => plain (.fsub f d a b)
  | 0x2 => plain (.fmul f d a b)
  | 0x3 => plain (.ffma f d a b)
  | 0x4 => plain (.fdiv f d a b)
  | 0x5 => unary (.fsqrt f d a)
  | 0x6 => plain (.fmin f d a b)
  | 0x7 => plain (.fmax f d a b)
  | 0x8 => coded (FCond.ofCode sub) fun c => .ok (.fcmp c f d a b)
  | 0x9 => coded (FCvt.ofCode sub) fun c => rsv (b == 0) (.fcvt c f d a)
  | 0xA => unary (.fabs f d a)
  | 0xB => unary (.fneg f d a)
  | _ => .error .unassignedCell

/-- CSR cells (R53), split as the table of operations splits them. -/
def decodeCsr (d : BitVec 6) (n : BitVec 12) (m : BitVec 8) : Except DecodeErr Instr :=
  match m.toNat with
  | 0x00 =>
    match SpecReg.ofNum n with
    | none => .error .unassignedRegister
    | some .pbub => .ok (.csrrRsc d .pbub)
    | some .frzc => .ok (.csrrRsc d .frzc)
    | some .vhaz => .ok (.csrrRsc d .vhaz)
    | some .latev => .ok (.csrrRsc d .latev)
    | some .evdrop => .ok (.csrrRsc d .evdrop)
    | some .evans => .ok (.csrrRsc d .evans)
    | some r => .ok (.csrr d r)
  | 0x01 =>
    match SpecReg.ofNum n with
    | none => .error .unassignedRegister
    | some (.fmt k) => .ok (.csrwFmt k d)
    | some (.shape k) => .ok (.csrwShape k d)
    | some (.cctl c) => .ok (.csrwCctl c d)
    | some .evctl => .ok (.csrwEvctl d)
    | some (.evwh k) => .ok (.csrwEvwh k d)
    | some r => .ok (.csrw r d)
  | _ => .error .unassignedCell

/-- LS cells (R57). -/
def decodeLs (d a b : BitVec 6) (m : BitVec 8) : Except DecodeErr Instr :=
  let l := hi4 m
  match (lo4 m).toNat with
  | 0 => .ok (.ld .b l d a b)
  | 1 => .ok (.ld .h l d a b)
  | 2 => .ok (.ld .w l d a b)
  | 3 => .ok (.ld .d l d a b)
  | 4 => .ok (.ld .q l d a b)
  | 5 => .ok (.lds .b l d a b)
  | 6 => .ok (.lds .h l d a b)
  | 7 => .ok (.lds .w l d a b)
  | 8 => rsv (l == 0) (.st .b d a b)
  | 9 => rsv (l == 0) (.st .h d a b)
  | 10 => rsv (l == 0) (.st .w d a b)
  | 11 => rsv (l == 0) (.st .d d a b)
  | 12 => rsv (l == 0) (.st .q d a b)
  | 13 => .ok (.tagld l d a b)
  | 14 => rsv (l == 0) (.tagst d a b)
  | _ => rsv (l == 0) (.mcst d a b)

/-- LSX cells (R57). -/
def decodeLsx (d a b : BitVec 6) (m : BitVec 8) : Except DecodeErr Instr :=
  let l := hi4 m
  match (lo4 m).toNat with
  | 0 => .ok (.ldIndexed .b l d a b)
  | 1 => .ok (.ldIndexed .h l d a b)
  | 2 => .ok (.ldIndexed .w l d a b)
  | 3 => .ok (.ldIndexed .d l d a b)
  | 4 => .ok (.ldIndexed .q l d a b)
  | 5 => .ok (.ldsIndexed .b l d a b)
  | 6 => .ok (.ldsIndexed .h l d a b)
  | 7 => .ok (.ldsIndexed .w l d a b)
  | 8 => rsv (l == 0) (.stIndexed .b d a b)
  | 9 => rsv (l == 0) (.stIndexed .h d a b)
  | 10 => rsv (l == 0) (.stIndexed .w d a b)
  | 11 => rsv (l == 0) (.stIndexed .d d a b)
  | 12 => rsv (l == 0) (.stIndexed .q d a b)
  | _ => .error .unassignedCell

/-- VMEM cells (R58). -/
def decodeVmem (d a b : BitVec 6) (m : BitVec 8) : Except DecodeErr Instr :=
  let l := hi4 m
  match (lo4 m).toNat with
  | 0 => rsv (top1 d == 0) (.ldv l (lo5 d) a b)
  | 1 => rsv (top1 d == 0 && l == 0) (.stv (lo5 d) a b)
  | 2 => rsv (top1 d == 0) (.ldx l (lo5 d) a b)
  | 3 => rsv (top1 d == 0 && l == 0) (.stx (lo5 d) a b)
  | _ => .error .unassignedCell

/-- ORD cells (R59). -/
def decodeOrd (d a b : BitVec 6) (m : BitVec 8) : Except DecodeErr Instr :=
  coded (Scope.ofCode (lo3 m)) fun sc =>
    if m.getLsbD 3 then rsv (hi4 m == 0) (.stDRel sc d a b) else .ok (.ldDAcq sc (hi4 m) d a b)

/-- AMO cells (R60). -/
def decodeAmo (d a b : BitVec 6) (m : BitVec 8) : Except DecodeErr Instr :=
  coded (AmoOp.ofCode (m.extractLsb' 1 3)) fun op =>
    .ok (.amo op (AmoW.ofCode (m.extractLsb' 0 1)) (hi4 m) d a b)

/-- AMOS cells (R60). -/
def decodeAmos (d a b : BitVec 6) (m : BitVec 8) : Except DecodeErr Instr :=
  coded (AmoOp.ofCode (m.extractLsb' 5 3)) fun op =>
    coded (Scope.ofCode (m.extractLsb' 2 3)) fun sc =>
      coded (AmoOrd.ofCode (m.extractLsb' 0 2)) fun o => .ok (.amos op sc o d a b)

/-- MSYS cells (R61). -/
def decodeMsys (d a b : BitVec 6) (m : BitVec 8) : Except DecodeErr Instr :=
  match m.toNat with
  | 0x08 => rsv (d == 0 && a == 0 && b == 0) .vjoin
  | 0x09 => rsv (d == 0 && b == 0) (.pref a)
  | 0x20 => rsv (d == 0) (.red .add .w a b)
  | 0x21 => rsv (d == 0) (.red .add .d a b)
  | 0x22 => rsv (d == 0) (.red .min .w a b)
  | 0x23 => rsv (d == 0) (.red .min .d a b)
  | 0x24 => rsv (d == 0) (.red .max .w a b)
  | 0x25 => rsv (d == 0) (.red .max .d a b)
  | 0x26 => rsv (d == 0) (.red .and .w a b)
  | 0x27 => rsv (d == 0) (.red .and .d a b)
  | 0x28 => rsv (d == 0) (.red .or .w a b)
  | 0x29 => rsv (d == 0) (.red .or .d a b)
  | 0x2A => rsv (d == 0) (.red .xor .w a b)
  | 0x2B => rsv (d == 0) (.red .xor .d a b)
  | _ =>
    coded (Scope.ofCode (lo3 m)) fun sc =>
      match (m.extractLsb' 3 5).toNat with
      | 0 => rsv (d == 0 && a == 0 && b == 0) (.fence sc)
      | 2 => rsv (d == 0) (.flush sc a b)
      | 3 => rsv (d == 0) (.inval sc a b)
      | _ => .error .unassignedCell

/-- The reserved high bits of v register fields (R25). -/
def vv (d a b : BitVec 6) : Bool := top1 d == 0 && top1 a == 0 && top1 b == 0

/-- VA cells (R62). -/
def decodeVa (d a b : BitVec 6) (m : BitVec 8) : Except DecodeErr Instr :=
  let p := hi4 m
  match (lo4 m).toNat with
  | 0 => rsv (vv d a b) (.vadd p (lo5 d) (lo5 a) (lo5 b))
  | 1 => rsv (vv d a b) (.vsub p (lo5 d) (lo5 a) (lo5 b))
  | 2 => rsv (vv d a b) (.vmul p (lo5 d) (lo5 a) (lo5 b))
  | 3 => rsv (vv d a b) (.vfma p (lo5 d) (lo5 a) (lo5 b))
  | 4 => rsv (vv d a b) (.vmin p (lo5 d) (lo5 a) (lo5 b))
  | 5 => rsv (vv d a b) (.vmax p (lo5 d) (lo5 a) (lo5 b))
  | 6 => rsv (vv d a b && b == 0) (.vabs p (lo5 d) (lo5 a))
  | 7 => rsv (vv d a b && b == 0) (.vneg p (lo5 d) (lo5 a))
  | 8 => rsv (vv d a b) (.vdiv p (lo5 d) (lo5 a) (lo5 b))
  | 9 => rsv (vv d a b && b == 0) (.vsqrt p (lo5 d) (lo5 a))
  | 10 => rsv (vv d a b && b == 0) (.vrcp p (lo5 d) (lo5 a))
  | 11 => rsv (vv d a b && b == 0) (.vrsq p (lo5 d) (lo5 a))
  | 12 => rsv (vv d a b && b == 0) (.vexp p (lo5 d) (lo5 a))
  | 13 => rsv (vv d a b && b == 0) (.vlog p (lo5 d) (lo5 a))
  | 14 => rsv (vv d a b) (.vsel p (lo5 d) (lo5 a) (lo5 b))
  | _ => rsv (vv d a b && b == 0) (.vcvt p (lo5 d) (lo5 a))

/-- The predicate register that a VCMP names in D[23:20], with D[25:24] reserved (R62). -/
def pD (d : BitVec 6) : BitVec 4 := d.extractLsb' 0 4

/-- VB cells (R62). -/
def decodeVb (d a b : BitVec 6) (m : BitVec 8) : Except DecodeErr Instr :=
  let p := hi4 m
  match (lo4 m).toNat with
  | 0 => rsv (vv d a b) (.vand p (lo5 d) (lo5 a) (lo5 b))
  | 1 => rsv (vv d a b) (.vor p (lo5 d) (lo5 a) (lo5 b))
  | 2 => rsv (vv d a b) (.vxor p (lo5 d) (lo5 a) (lo5 b))
  | 3 => rsv (vv d a b) (.vshl p (lo5 d) (lo5 a) (lo5 b))
  | 4 => rsv (vv d a b) (.vshr p (lo5 d) (lo5 a) (lo5 b))
  | 5 => rsv (vv d a b) (.vsra p (lo5 d) (lo5 a) (lo5 b))
  | 6 => rsv (vv d a b) (.vreds p (lo5 d) (lo5 a) (lo5 b))
  | 7 => rsv (vv d a b) (.vredmMax p (lo5 d) (lo5 a) (lo5 b))
  | 8 => rsv (vv d a b) (.vredmMin p (lo5 d) (lo5 a) (lo5 b))
  | 9 => rsv (vv d a b && b == 0) (.vscan p (lo5 d) (lo5 a))
  | 10 => rsv (vv d a b && b == 0) (.vpopc p (lo5 d) (lo5 a))
  | 11 => rsv (top1 d == 0 && a == 0 && b == 0) (.viota p (lo5 d))
  | 12 => rsv (d.extractLsb' 4 2 == 0 && top1 a == 0 && top1 b == 0) (.vcmpEq p (pD d) (lo5 a) (lo5 b))
  | 13 => rsv (d.extractLsb' 4 2 == 0 && top1 a == 0 && top1 b == 0) (.vcmpNe p (pD d) (lo5 a) (lo5 b))
  | 14 => rsv (d.extractLsb' 4 2 == 0 && top1 a == 0 && top1 b == 0) (.vcmpLt p (pD d) (lo5 a) (lo5 b))
  | _ => rsv (d.extractLsb' 4 2 == 0 && top1 a == 0 && top1 b == 0) (.vcmpLe p (pD d) (lo5 a) (lo5 b))

/-- VC cells (R62). -/
def decodeVc (d a b : BitVec 6) (m : BitVec 8) : Except DecodeErr Instr :=
  let p := hi4 m
  match (lo4 m).toNat with
  | 0 => rsv (vv d a b) (.vperm p (lo5 d) (lo5 a) (lo5 b))
  | 1 => rsv (vv d a b) (.vshuf p (lo5 d) (lo5 a) (lo5 b))
  | 2 => rsv (top1 d == 0 && a == 0) (.vbcast p (lo5 d) b)
  | 3 => rsv (top1 d == 0 && top1 a == 0) (.vpln p (lo5 d) (lo5 a) b)
  | 4 => rsv (top1 d == 0 && top1 a == 0) (.vplj p (lo5 d) (lo5 a) b)
  | 5 => rsv (top1 a == 0 && p == 0) (.vmovsG d (lo5 a) b)
  | 6 => rsv (top1 d == 0 && p == 0) (.vmovsV (lo5 d) a b)
  | _ => .error .unassignedCell

/-- MAC cells (R63, R175). -/
def decodeMac (d a b : BitVec 6) (m : BitVec 8) : Except DecodeErr Instr :=
  let v := lo3 m
  let h : BitVec 3 := d.extractLsb' 0 3
  let hok : Bool := d.extractLsb' 3 3 == 0
  let one (i : Instr) : Except DecodeErr Instr := rsv (hok && b == 0) i
  match (m.extractLsb' 3 5).toNat with
  | 0 => coded (MVar.ofCode v) fun v => one (.tlw v h a)
  | 1 => coded (MVar.ofCode v) fun v => one (.tmm v h a)
  | 2 => coded (MVar.ofCode v) fun v => one (.tmmg v h a)
  | 3 => coded (RVar.ofCode v) fun v => one (.trank v h a)
  | 4 => coded (MVar.ofCode v) fun v => one (.tspz v h a)
  | 5 => coded (MVar.ofCode v) fun v => one (.tdr v h a)
  | 6 => if v = 0 then one (.tz h a) else .error .unassignedCell
  | 7 => if v = 0 then one (.tshape h a) else .error .unassignedCell
  | 8 => coded (ESize.ofCode v) fun e => one (.gath e h a)
  | 9 => coded (ESize.ofCode v) fun e => one (.scat e h a)
  | 10 => coded (ESize.ofCode v) fun e => one (.copy e h a)
  | 11 => coded (ESize.ofCode v) fun e => one (.copy2 e h a)
  | 12 => coded (ESize.ofCode v) fun e => rsv hok (.setm e h a b)
  | 13 => coded (Scope.ofCode v) fun sc => one (.qfence sc h a)
  | 14 => if v = 0 then rsv (hok && a == 0 && b == 0) (.mwait h) else .error .unassignedCell
  | 15 =>
    if v = 0 then rsv (a.extractLsb' 3 3 == 0 && b == 0) (.mprg d (a.extractLsb' 0 3))
    else .error .unassignedCell
  | 16 =>
    if v = 0 then rsv (a.extractLsb' 3 3 == 0 && b == 0) (.mstat d (a.extractLsb' 0 3))
    else .error .unassignedCell
  | 17 => if v = 0 then one (.mres h a) else .error .unassignedCell
  | 18 => if v = 0 then rsv (hok && a == 0 && b == 0) (.mkill h) else .error .unassignedCell
  | _ => .error .unassignedCell

/-- NET cells (R64, R194). -/
def decodeNet (d a b : BitVec 6) (m : BitVec 8) : Except DecodeErr Instr :=
  let l := hi4 m
  match (lo4 m).toNat with
  | 0 => rsv (l == 0) (.pub d a b)
  | 1 => .ok (.subNet l d a b)
  | 2 => .ok (.unsub l d a b)
  | 3 => rsv (l == 0) (.steer d a b)
  | 4 => rsv (l == 0) (.merge d a b)
  | 5 => rsv (l == 0 && d == 0 && b == 0) (.stsnap a)
  | 6 => rsv (l == 0) (.send d a b)
  | 7 => rsv (l == 0 && d == 0) (.grant a b)
  | 8 => rsv (l == 0 && d == 0 && b == 0) (.arrive a)
  | _ => .error .unassignedCell

/-- TASK cells (R64, R194). EVCFG has one word for both its rows of the table of operations; which it is stands in
operand A (R214), and the decoder answers the first. -/
def decodeTask (d a b : BitVec 6) (m : BitVec 8) : Except DecodeErr Instr :=
  let l := hi4 m
  match (lo4 m).toNat with
  | 0 => .ok (.frame l d a b)
  | 1 => rsv (l == 0) (.fslot d a b)
  | 2 => rsv (l == 0 && d == 0) (.spawn a b)
  | 3 => .ok (.tagop l d a b)
  | 4 => rsv (l == 0 && d == 0) (.evcfgPset a b)
  | 5 => rsv (l == 0) (.evpost d a b)
  | 6 => rsv (b == 0) (.evrd l d a)
  | 7 => rsv (l == 0 && d == 0) (.evsnap a b)
  | 8 => rsv (l == 0 && d == 0 && b == 0) (.evtick a)
  | _ => .error .unassignedCell

/-- The instruction that a slot word stands for (R47), or why it stands for none. -/
def decode (w : SlotWord) : Except DecodeErr Instr :=
  let d := fD w
  let a := fA w
  let b := fB w
  let m := fMin w
  match (fMaj w).toNat with
  | 0b00000 => decodeCtl d a b m
  | 0b00001 => .ok (if d = 0 then .br (fDisp w) else .call d (fDisp w))
  | 0b00010 => rsv (d == 0) (.jmp (fDisp w))
  | 0b00011 => .ok (.brnZ d (fDisp w))
  | 0b00100 => .ok (.brnNz d (fDisp w))
  | 0b00101 => coded (PCond.ofCode (d.extractLsb' 4 2)) fun c => .ok (.brnP c (pD d) (fDisp w))
  | 0b00110 => .ok (.loop d (fDisp w))
  | 0b00111 => .ok (.loopi d (fDisp w))
  | 0b01000 => decodeAlu d a b m
  | 0b01001 => .ok (.addi d a (fImm w))
  | 0b01010 => .ok (.andi d a (fImm w))
  | 0b01011 => .ok (.ori d a (fImm w))
  | 0b01100 => .ok (.xori d a (fImm w))
  | 0b01101 => rsv (a == 0) (.lui d (fImm w))
  | 0b01110 => rsv (a == 0) (.addpc d (fImm w))
  | 0b01111 => decodeFlt d a b m
  | 0b10000 => decodeCsr d (fSpec w) m
  | 0b10001 => decodeLs d a b m
  | 0b10010 => decodeLsx d a b m
  | 0b10011 => decodeVmem d a b m
  | 0b10100 => decodeOrd d a b m
  | 0b10101 => decodeAmo d a b m
  | 0b10110 => decodeAmos d a b m
  | 0b10111 => decodeMsys d a b m
  | 0b11000 => decodeVa d a b m
  | 0b11001 => decodeVb d a b m
  | 0b11010 => decodeVc d a b m
  | 0b11011 => decodeMac d a b m
  | 0b11100 => decodeNet d a b m
  | 0b11101 => decodeTask d a b m
  | 0b11110 => .error .unassignedMajor
  | _ => .ok (.imx (fVal w))

/-! ### Bytes of a slot -/

/-- A slot word from its four bytes, lowest address first (R8). -/
def slotOfBytes (b0 b1 b2 b3 : Byte) : SlotWord := b3 ++ b2 ++ b1 ++ b0

/-- The instruction that the first four bytes of a list stand for, with the bytes after them. -/
def decodeBytes : List Byte → Except DecodeErr (Instr × List Byte)
  | b0 :: b1 :: b2 :: b3 :: rest =>
    match decode (slotOfBytes b0 b1 b2 b3) with
    | .ok i => .ok (i, rest)
    | .error e => .error e
  | _ => .error .unassignedCell

/-- The instruction that the host's numbering of a table row's bits gives: one 32-bit slot word. -/
def decodeTableWord (_nbits w : Nat) : Option Instr :=
  match decode (BitVec.ofNat 32 w) with
  | .ok i => some i
  | .error _ => none

/-! ### The encoder -/

/-- A slot word of the RR, MO, MX, VV and MC shapes (R22, R104). -/
def mkRR (maj : BitVec 5) (d a b : BitVec 6) (m : BitVec 8) : SlotWord := 0#1 ++ maj ++ d ++ a ++ b ++ m
/-- A slot word of the RI shape (R23). -/
def mkRI (maj : BitVec 5) (d a : BitVec 6) (imm : BitVec 14) : SlotWord := 0#1 ++ maj ++ d ++ a ++ imm
/-- A slot word of the CB shape (R23). -/
def mkCB (maj : BitVec 5) (d : BitVec 6) (disp : BitVec 20) : SlotWord := 0#1 ++ maj ++ d ++ disp
/-- A CSR slot word, its number in [19:8] (R53). -/
def mkCsr (d : BitVec 6) (n : BitVec 12) (m : BitVec 8) : SlotWord := 0#1 ++ 0b10000#5 ++ d ++ n ++ m
/-- A v register in a 6-bit field (R25). -/
def vf (v : BitVec 5) : BitVec 6 := 0#1 ++ v
/-- MIN of a memory or network slot: LAND and a kind or op (R24, R50). -/
def mkMin (l k : BitVec 4) : BitVec 8 := l ++ k
/-- MIN of an FLT cell (R56). -/
def mkFlt (op : BitVec 4) (f : FFmt) (sub : BitVec 3) : BitVec 8 := op ++ f.code ++ sub
/-- A word of the MC shape: handle, op and variant (R175). -/
def mkMac (op : BitVec 5) (v : BitVec 3) (h : BitVec 3) (a b : BitVec 6) : SlotWord :=
  mkRR 0b11011 (0#3 ++ h) a b (op ++ v)

/-- The slot word of an instruction, its end bit 0; `none` for a step that is no slot instruction. -/
def encode : Instr → Option SlotWord
  | .nop => some (mkRR 0b00000 0 0 0 0x00)
  | .jmpi a => some (mkRR 0b00000 0 a 0 0x01)
  | .ret a => some (mkRR 0b00000 0 a 0 0x02)
  | .yield => some (mkRR 0b00000 0 0 0 0x03)
  | .done => some (mkRR 0b00000 0 0 0 0x04)
  | .trap a => some (mkRR 0b00000 0 a 0 0x05)
  | .kchain a b => some (mkRR 0b00000 0 a b 0x06)
  | .sys a b => some (mkRR 0b00000 0 a b 0x10)
  | .brk a => some (mkRR 0b00000 0 a 0 0x11)
  | .wfe => some (mkRR 0b00000 0 0 0 0x12)
  | .eret => some (mkRR 0b00000 0 0 0 0x18)
  | .tlbi a b => some (mkRR 0b00000 0 a b 0x19)
  | .tpre a => some (mkRR 0b00000 0 a 0 0x1A)
  | .halt => some (mkRR 0b00000 0 0 0 0x1B)
  | .br x => some (mkCB 0b00001 0 x)
  | .call d x => some (mkCB 0b00001 d x)
  | .jmp x => some (mkCB 0b00010 0 x)
  | .brnZ d x => some (mkCB 0b00011 d x)
  | .brnNz d x => some (mkCB 0b00100 d x)
  | .brnP c k x => some (mkCB 0b00101 (c.code ++ k) x)
  | .loop d x => some (mkCB 0b00110 d x)
  | .loopi n x => some (mkCB 0b00111 n x)
  | .add d a b => some (mkRR 0b01000 d a b 0x00)
  | .sub d a b => some (mkRR 0b01000 d a b 0x01)
  | .mul d a b => some (mkRR 0b01000 d a b 0x02)
  | .mulh d a b => some (mkRR 0b01000 d a b 0x03)
  | .mulhu d a b => some (mkRR 0b01000 d a b 0x04)
  | .div d a b => some (mkRR 0b01000 d a b 0x05)
  | .divu d a b => some (mkRR 0b01000 d a b 0x06)
  | .rem d a b => some (mkRR 0b01000 d a b 0x07)
  | .remu d a b => some (mkRR 0b01000 d a b 0x08)
  | .and d a b => some (mkRR 0b01000 d a b 0x09)
  | .or d a b => some (mkRR 0b01000 d a b 0x0A)
  | .xor d a b => some (mkRR 0b01000 d a b 0x0B)
  | .andn d a b => some (mkRR 0b01000 d a b 0x0C)
  | .sll d a b => some (mkRR 0b01000 d a b 0x0D)
  | .srl d a b => some (mkRR 0b01000 d a b 0x0E)
  | .sra d a b => some (mkRR 0b01000 d a b 0x0F)
  | .ror d a b => some (mkRR 0b01000 d a b 0x10)
  | .sllImm d a n => some (mkRR 0b01000 d a n 0x21)
  | .srlImm d a n => some (mkRR 0b01000 d a n 0x22)
  | .sraImm d a n => some (mkRR 0b01000 d a n 0x23)
  | .rorImm d a n => some (mkRR 0b01000 d a n 0x24)
  | .clz d a => some (mkRR 0b01000 d a 0 0x11)
  | .ctz d a => some (mkRR 0b01000 d a 0 0x12)
  | .popc d a => some (mkRR 0b01000 d a 0 0x13)
  | .min d a b => some (mkRR 0b01000 d a b 0x14)
  | .max d a b => some (mkRR 0b01000 d a b 0x15)
  | .minu d a b => some (mkRR 0b01000 d a b 0x16)
  | .maxu d a b => some (mkRR 0b01000 d a b 0x17)
  | .slt d a b => some (mkRR 0b01000 d a b 0x18)
  | .sltu d a b => some (mkRR 0b01000 d a b 0x19)
  | .sel d a b => some (mkRR 0b01000 d a b 0x1A)
  | .ext d a b => some (mkRR 0b01000 d a b 0x1B)
  | .extu d a b => some (mkRR 0b01000 d a b 0x1C)
  | .ins d a b => some (mkRR 0b01000 d a b 0x1D)
  | .madd d a b => some (mkRR 0b01000 d a b 0x1E)
  | .mov d a => some (mkRR 0b01000 d a 0 0x1F)
  | .xmov d a => some (mkRR 0b01000 d a 0 0x20)
  | .addi d a i => some (mkRI 9 d a i)
  | .andi d a i => some (mkRI 10 d a i)
  | .ori d a i => some (mkRI 11 d a i)
  | .xori d a i => some (mkRI 12 d a i)
  | .lui d i => some (mkRI 13 d 0 i)
  | .addpc d i => some (mkRI 14 d 0 i)
  | .imx v => some (0#1 ++ 0b11111#5 ++ v)
  | .fadd f d a b => some (mkRR 0b01111 d a b (mkFlt 0 f 0))
  | .fsub f d a b => some (mkRR 0b01111 d a b (mkFlt 1 f 0))
  | .fmul f d a b => some (mkRR 0b01111 d a b (mkFlt 2 f 0))
  | .ffma f d a b => some (mkRR 0b01111 d a b (mkFlt 3 f 0))
  | .fdiv f d a b => some (mkRR 0b01111 d a b (mkFlt 4 f 0))
  | .fsqrt f d a => some (mkRR 0b01111 d a 0 (mkFlt 5 f 0))
  | .fmin f d a b => some (mkRR 0b01111 d a b (mkFlt 6 f 0))
  | .fmax f d a b => some (mkRR 0b01111 d a b (mkFlt 7 f 0))
  | .fcmp c f d a b => some (mkRR 0b01111 d a b (mkFlt 8 f c.code))
  | .fcvt c f d a => some (mkRR 0b01111 d a 0 (mkFlt 9 f c.code))
  | .fabs f d a => some (mkRR 0b01111 d a 0 (mkFlt 10 f 0))
  | .fneg f d a => some (mkRR 0b01111 d a 0 (mkFlt 11 f 0))
  | .csrr d r => some (mkCsr d r.num 0x00)
  | .csrrRsc d r => some (mkCsr d r.spec.num 0x00)
  | .csrw r d => some (mkCsr d r.num 0x01)
  | .csrwFmt k d => some (mkCsr d (SpecReg.fmt k).num 0x01)
  | .csrwShape k d => some (mkCsr d (SpecReg.shape k).num 0x01)
  | .csrwCctl c d => some (mkCsr d (SpecReg.cctl c).num 0x01)
  | .csrwEvctl d => some (mkCsr d SpecReg.evctl.num 0x01)
  | .csrwEvwh k d => some (mkCsr d (SpecReg.evwh k).num 0x01)
  | .ld w l d a o => some (mkRR 0b10001 d a o (mkMin l w.ldKind))
  | .ldIndexed w l d a b => some (mkRR 0b10010 d a b (mkMin l w.ldKind))
  | .lds w l d a o => some (mkRR 0b10001 d a o (mkMin l w.kind))
  | .ldsIndexed w l d a b => some (mkRR 0b10010 d a b (mkMin l w.kind))
  | .st w d a o => some (mkRR 0b10001 d a o (mkMin 0 w.stKind))
  | .stIndexed w d a b => some (mkRR 0b10010 d a b (mkMin 0 w.stKind))
  | .tagld l d a o => some (mkRR 0b10001 d a o (mkMin l 13))
  | .tagst d a o => some (mkRR 0b10001 d a o (mkMin 0 14))
  | .mcst d a o => some (mkRR 0b10001 d a o (mkMin 0 15))
  | .ldv l d a o => some (mkRR 0b10011 (vf d) a o (mkMin l 0))
  | .stv d a o => some (mkRR 0b10011 (vf d) a o (mkMin 0 1))
  | .ldx l d a o => some (mkRR 0b10011 (vf d) a o (mkMin l 2))
  | .stx d a o => some (mkRR 0b10011 (vf d) a o (mkMin 0 3))
  | .ldDAcq sc l d a o => some (mkRR 0b10100 d a o (mkMin l (0#1 ++ sc.code)))
  | .stDRel sc d a o => some (mkRR 0b10100 d a o (mkMin 0 (1#1 ++ sc.code)))
  | .amo op w l d a b => some (mkRR 0b10101 d a b (mkMin l (op.code ++ w.code)))
  | .amos op sc o d a b => some (mkRR 0b10110 d a b (op.code ++ sc.code ++ o.code))
  | .fence sc => some (mkRR 0b10111 0 0 0 (0#5 ++ sc.code))
  | .vjoin => some (mkRR 0b10111 0 0 0 0x08)
  | .pref a => some (mkRR 0b10111 0 a 0 0x09)
  | .flush sc a b => some (mkRR 0b10111 0 a b (2#5 ++ sc.code))
  | .inval sc a b => some (mkRR 0b10111 0 a b (3#5 ++ sc.code))
  | .red op w a b => some (mkRR 0b10111 0 a b (2#4 ++ op.code ++ w.code))
  | .vadd p d a b => some (mkRR 24 (vf d) (vf a) (vf b) (p ++ 0#4))
  | .vsub p d a b => some (mkRR 24 (vf d) (vf a) (vf b) (p ++ 1#4))
  | .vmul p d a b => some (mkRR 24 (vf d) (vf a) (vf b) (p ++ 2#4))
  | .vfma p d a b => some (mkRR 24 (vf d) (vf a) (vf b) (p ++ 3#4))
  | .vmin p d a b => some (mkRR 24 (vf d) (vf a) (vf b) (p ++ 4#4))
  | .vmax p d a b => some (mkRR 24 (vf d) (vf a) (vf b) (p ++ 5#4))
  | .vabs p d a => some (mkRR 24 (vf d) (vf a) 0 (p ++ 6#4))
  | .vneg p d a => some (mkRR 24 (vf d) (vf a) 0 (p ++ 7#4))
  | .vdiv p d a b => some (mkRR 24 (vf d) (vf a) (vf b) (p ++ 8#4))
  | .vsqrt p d a => some (mkRR 24 (vf d) (vf a) 0 (p ++ 9#4))
  | .vrcp p d a => some (mkRR 24 (vf d) (vf a) 0 (p ++ 10#4))
  | .vrsq p d a => some (mkRR 24 (vf d) (vf a) 0 (p ++ 11#4))
  | .vexp p d a => some (mkRR 24 (vf d) (vf a) 0 (p ++ 12#4))
  | .vlog p d a => some (mkRR 24 (vf d) (vf a) 0 (p ++ 13#4))
  | .vsel p d a b => some (mkRR 24 (vf d) (vf a) (vf b) (p ++ 14#4))
  | .vcvt p d a => some (mkRR 24 (vf d) (vf a) 0 (p ++ 15#4))
  | .vand p d a b => some (mkRR 25 (vf d) (vf a) (vf b) (p ++ 0#4))
  | .vor p d a b => some (mkRR 25 (vf d) (vf a) (vf b) (p ++ 1#4))
  | .vxor p d a b => some (mkRR 25 (vf d) (vf a) (vf b) (p ++ 2#4))
  | .vshl p d a b => some (mkRR 25 (vf d) (vf a) (vf b) (p ++ 3#4))
  | .vshr p d a b => some (mkRR 25 (vf d) (vf a) (vf b) (p ++ 4#4))
  | .vsra p d a b => some (mkRR 25 (vf d) (vf a) (vf b) (p ++ 5#4))
  | .vreds p d a b => some (mkRR 25 (vf d) (vf a) (vf b) (p ++ 6#4))
  | .vredmMax p d a b => some (mkRR 25 (vf d) (vf a) (vf b) (p ++ 7#4))
  | .vredmMin p d a b => some (mkRR 25 (vf d) (vf a) (vf b) (p ++ 8#4))
  | .vscan p d a => some (mkRR 25 (vf d) (vf a) 0 (p ++ 9#4))
  | .vpopc p d a => some (mkRR 25 (vf d) (vf a) 0 (p ++ 10#4))
  | .viota p d => some (mkRR 25 (vf d) 0 0 (p ++ 11#4))
  | .vcmpEq p d a b => some (mkRR 25 (0#2 ++ d) (vf a) (vf b) (p ++ 12#4))
  | .vcmpNe p d a b => some (mkRR 25 (0#2 ++ d) (vf a) (vf b) (p ++ 13#4))
  | .vcmpLt p d a b => some (mkRR 25 (0#2 ++ d) (vf a) (vf b) (p ++ 14#4))
  | .vcmpLe p d a b => some (mkRR 25 (0#2 ++ d) (vf a) (vf b) (p ++ 15#4))
  | .vperm p d a b => some (mkRR 26 (vf d) (vf a) (vf b) (p ++ 0#4))
  | .vshuf p d a b => some (mkRR 26 (vf d) (vf a) (vf b) (p ++ 1#4))
  | .vbcast p d b => some (mkRR 26 (vf d) 0 b (p ++ 2#4))
  | .vpln p d a b => some (mkRR 26 (vf d) (vf a) b (p ++ 3#4))
  | .vplj p d a b => some (mkRR 26 (vf d) (vf a) b (p ++ 4#4))
  | .vmovsG d a b => some (mkRR 26 d (vf a) b (0#4 ++ 5#4))
  | .vmovsV d a b => some (mkRR 26 (vf d) a b (0#4 ++ 6#4))
  | .tlw v m a => some (mkMac 0 v.code m a 0)
  | .tmm v m a => some (mkMac 1 v.code m a 0)
  | .tmmg v m a => some (mkMac 2 v.code m a 0)
  | .trank v m a => some (mkMac 3 v.code m a 0)
  | .tspz v m a => some (mkMac 4 v.code m a 0)
  | .tdr v m a => some (mkMac 5 v.code m a 0)
  | .tz m a => some (mkMac 6 0 m a 0)
  | .tshape m a => some (mkMac 7 0 m a 0)
  | .gath e m a => some (mkMac 8 e.code m a 0)
  | .scat e m a => some (mkMac 9 e.code m a 0)
  | .copy e m a => some (mkMac 10 e.code m a 0)
  | .copy2 e m a => some (mkMac 11 e.code m a 0)
  | .setm e m a b => some (mkMac 12 e.code m a b)
  | .qfence sc m a => some (mkMac 13 sc.code m a 0)
  | .mwait m => some (mkMac 14 0 m 0 0)
  | .mprg d m => some (mkRR 0b11011 d (0#3 ++ m) 0 (15#5 ++ 0#3))
  | .mstat d m => some (mkRR 0b11011 d (0#3 ++ m) 0 (16#5 ++ 0#3))
  | .mres m a => some (mkMac 17 0 m a 0)
  | .mkill m => some (mkMac 18 0 m 0 0)
  | .pub d a b => some (mkRR 28 d a b (mkMin 0 0))
  | .subNet l d a b => some (mkRR 28 d a b (mkMin l 1))
  | .unsub l d a b => some (mkRR 28 d a b (mkMin l 2))
  | .steer d a b => some (mkRR 28 d a b (mkMin 0 3))
  | .merge d a b => some (mkRR 28 d a b (mkMin 0 4))
  | .stsnap a => some (mkRR 28 0 a 0 (mkMin 0 5))
  | .send d a b => some (mkRR 28 d a b (mkMin 0 6))
  | .grant a b => some (mkRR 28 0 a b (mkMin 0 7))
  | .arrive a => some (mkRR 28 0 a 0 (mkMin 0 8))
  | .frame l d a b => some (mkRR 29 d a b (mkMin l 0))
  | .fslot d a b => some (mkRR 29 d a b (mkMin 0 1))
  | .spawn a b => some (mkRR 29 0 a b (mkMin 0 2))
  | .tagop l d a b => some (mkRR 29 d a b (mkMin l 3))
  | .evcfgPset a b => some (mkRR 29 0 a b (mkMin 0 4))
  | .evcfgEntries a b => some (mkRR 29 0 a b (mkMin 0 4))
  | .evpost d a b => some (mkRR 29 d a b (mkMin 0 5))
  | .evrd l d a => some (mkRR 29 d a 0 (mkMin l 6))
  | .evsnap a b => some (mkRR 29 0 a b (mkMin 0 7))
  | .evtick a => some (mkRR 29 0 a 0 (mkMin 0 8))
  | .bundleIssue .. => none
  | .resultArrival .. => none
  | .berthSave .. => none
  | .supervisorEntry .. => none
  | .macroStart .. => none
  | .macroElement .. => none
  | .egressInject .. => none
  | .tokenSelection .. => none
  | .frameFill .. => none
  | .spawnArrival .. => none
  | .chainEmission .. => none
  | .routerPub .. => none
  | .routerSub .. => none
  | .routerUnsub .. => none
  | .summitApply .. => none
  | .routerAnswer .. => none
  | .answerArrival .. => none
  | .quayFall .. => none
  | .quayFallPublish .. => none
  | .ingressPacket .. => none
  | .strmDeposit .. => none
  | .grantAtSummit .. => none
  | .openAtSummit .. => none
  | .grantArrival .. => none
  | .staleArrival .. => none
  | .ackArrival .. => none
  | .resendTimeout .. => none
  | .retentionExpiry .. => none
  | .portArbitration .. => none
  | .linkFlitReceive .. => none
  | .linkNak .. => none
  | .linkAckTimeout .. => none
  | .reachabilitySweep .. => none
  | .nieskFrameReceive .. => none
  | .nieskPortDead .. => none
  | .partialArrival .. => none
  | .homeAccess .. => none
  | .baseDieAlu .. => none
  | .walkRequest .. => none
  | .walkDone .. => none
  | .migRecheck .. => none
  | .arriveAtHome .. => none
  | .barrierNoticeArrival .. => none
  | .replyNoticeArrival .. => none
  | .tick => none
  | .eventArrival .. => none
  | .eventApply .. => none
  | .claimAnswerArrival .. => none
  | .tileFault .. => none
  | .softErrorCorrected .. => none
  | .tilePowerLoss .. => none
  | .quiescenceSweep => none
  | .allot .. => none
  | .scrubDone .. => none
  | .start .. => none
  | .gate .. => none
  | .gateStopped .. => none
  | .gateSaveDone .. => none
  | .resume .. => none
  | .resumeMove .. => none
  | .jobEnd .. => none
  | .endDone .. => none
  | .jtcmdUnassigned .. => none
  | .retire .. => none
  | .genadv .. => none
  | .tableRefresh .. => none
  | .genadvDone => none
  | .shoot .. => none
  | .shootDone => none
  | .csnap .. => none
  | .channelRangeWrite .. => none
  | .tickPeriodWrite .. => none
  | .orphqWrite .. => none
  | .rnote .. => none
  | .watchpointWrite .. => none
  | .arbwWrite .. => none
  | .arbaWrite .. => none
  | .modidWrite .. => none
  | .debugStop .. => none
  | .debugRelease .. => none
  | .debugDump .. => none
  | .dumpDone .. => none
  | .sample .. => none
  | .criticalPathStep .. => none
  | .traceDrain .. => none
  | .traceRingWrite .. => none
  | .energyAddition .. => none
  | .energyWindowStart .. => none
  | .powerOverload .. => none
  | .undervoltage => none
  | .thermalEvent .. => none
  | .powerOn => none
  | .attest .. => none
  | .token .. => none
  | .map .. => none
  | .cert .. => none
  | .status .. => none
  | .crcmdUnassigned .. => none
  | .mgmtRequest .. => none
  | .pcieInbound .. => none
  | .rscRead .. => none
  | .registerWrite .. => none
  | .writeAcknowledgement .. => none
  | .csnapDone => none
  | .powerOverloadEnd .. => none
  | .thermalHoldEnd .. => none
  | .nieskPortUp .. => none

/-- The instruction that stands for a word which two rows of the table share: EVCFG (R214). -/
def canonical : Instr → Instr
  | .evcfgEntries a b => .evcfgPset a b
  | i => i

/-- The bytes of a slot word with its end bit set or clear, lowest address first (R8, R15). -/
def slotBytes (w : SlotWord) (last : Bool) : List Byte :=
  let w := if last then w ||| 0x80000000#32 else w
  [w.extractLsb' 0 8, w.extractLsb' 8 8, w.extractLsb' 16 8, w.extractLsb' 24 8]

end Sys2Proof
end

