-- ==== Sys2Proof/Config.lean ====
section
/-!
DEFINITION. Config.lean: what an implementation or one module fixes, and the free values. Each is a constant with no
body: nothing can be proved of its value (log entries 11, 12, 13, 17, 18).
-/
namespace Sys2Proof.Config

/-- Whether a hazard's granule keeps the value before the write (R137): one choice for each value of the counter. -/
opaque oldGranule : Nat → Nat → Bool

/-- The potential that a capacity neuron keeps when its count leaves the number format (R339). -/
opaque fullPotential : Nat → BitVec 32

/-- The energy coefficient of an activity class, fused at test (R413). -/
opaque energyCoef : Nat → BitVec 16

/-- A byte of a gate save block whose place within the block the spec does not lay out (R369): one for each value of the counter and
offset. -/
opaque savedByte : Nat → Nat → Byte

/-- The fields of a critical-path record that the origin's history does not hold: the frame index, and every field of a binding that
it no longer holds (R403, R411). -/
opaque lostStep : Nat → BitVec 256

/-- The 16 bytes of the wafer serial (R425). -/
opaque serial : Nat → Byte

/-- GOOD of a physical row of a field (R419). -/
opaque repairGood : Nat → Nat → BitVec 34

/-- What fixes SKIP0 of a physical row of a field, one of 0 to 32 (R419; Machine/Access.lean takes it into that range). -/
opaque repairSkip0 : Nat → Nat → BitVec 6

/-- What fixes SKIP1 of a physical row of a field, above SKIP0 and at most 33 (R419). -/
opaque repairSkip1 : Nat → Nat → BitVec 6

/-- The bits of a repair word beside GOOD, which hold SKIP0 and SKIP1 in places that the spec does not give (R419, R428). -/
opaque repairRest : BitVec 6 → BitVec 6 → BitVec 30

/-- How many bytes of an image at an address are its CODE beside the word of its first entry; the job table does not hold it (R231, R356). -/
opaque codeBytes : BitVec 64 → Nat → Nat

/-- The nanoseconds for which an access to a channel waits on refresh: one for each value of the counter (R318). -/
opaque refreshWait : Nat → BitVec 16

/-- A reading of a temperature sensor, in tenths of a degree: one for each value of the counter (R428). -/
opaque temperature : Nat → BitVec 16

/-- The bytes of the verified Filhus firmware, and how many they are (R426). -/
opaque firmware : Nat → Byte
opaque firmwareSize : Nat

/-- A byte of STATUS: the spec names what it holds (boot step, cause, token result, inlet and wafer temperature) and no layout (R428). -/
opaque statusByte : BitVec 8 → BitVec 8 → BitVec 8 → BitVec 16 → BitVec 16 → Nat → Byte

/-- The grade fuses as burned at test (R423). -/
opaque gradeFuses : BitVec 2

/-- SM3 of a byte string: 32 bytes (R425, R426, R429). -/
opaque sm3 : List Byte → Nat → Byte

/-- Whether an SM2 signature of a byte string verifies under Jouren's token key (R425). -/
opaque tokenVerifies : List Byte → List Byte → Bool

/-- The device key's SM2 signature of a byte string: 64 bytes (R429). -/
opaque deviceSign : List Byte → Nat → Byte

/-- The device's public key x ‖ y, 64 bytes (R428). -/
opaque devicePublicKey : Nat → Byte

/-- Jouren's signature of the serial and the public key, 64 bytes (R428). -/
opaque deviceCert : Nat → Byte

/-- The SM3 digest of the cairn firmware, as checked at the n-th boot (R426, R429). -/
opaque cairnDigest : Nat → Nat → Byte

/-- The SM3 digest of the Filhus firmware, as checked at the n-th boot (R426, R429). -/
opaque filhusDigest : Nat → Nat → Byte

/-- Whether a boot step with a failing condition passes at the n-th boot: 1 fuses, 2 firmware, 4 training (R426). -/
opaque bootPasses : Nat → Nat → Bool

/-- The cause that a failing boot step names (R426). -/
opaque bootCause : Nat → Nat → BitVec 8

/-- Whether the link of a router's port trains at the n-th boot (R426). -/
opaque linkTrains : Nat → Nat → Nat → Bool

/-- The physical address that the Filhus IOMMU gives a PCIe port's address; `none` when it refuses it (R431). -/
opaque iommu : Nat → Nat → Option Nat

/-- What the device behind a PCIe window answers to a Filhus core's load; the spec says nothing of it (R417, R431). -/
opaque pcieAnswer : Nat → Word

/-- The bytes that an outstanding access yields when its page is found unmapped after the access was checked (log entry 66). -/
opaque lateByte : Nat → Byte

/-- The source address fused in a Niesk port (R393). -/
opaque portMac : Nat → BitVec 48

end Sys2Proof.Config
end

