-- ==== Sys2Proof/Machine/TileState.lean ====
section
/-!
DEFINITION. Machine/TileState.lean: the state of one tile: its five berths, frames, engines, caches, event bank and
egress and ingress engines (R18, R35 to R43, R115, R120, R167 to R170, R237, R245, R327 to R333, R350 to R353).
-/
namespace Sys2Proof.Machine

/-- A list of keyed values, its keys strictly rising. -/
abbrev SMap (α : Type) := List (Nat × α)

/-! ### Exact numbers -/

/-- An operand value in exact form: a NaN (quiet or signalling), an infinity, or (-1)^neg × m × 2^e (R81, R84). -/
inductive FVal
  | nan (signalling : Bool)
  | inf (neg : Bool)
  | fin (neg : Bool) (m : Nat) (e : Int)
  deriving DecidableEq, Repr

/-! ### Berths -/

/-- A register that a result lands in (R35). -/
inductive Dest
  | g (r : BitVec 6)
  | v (r : BitVec 5)
  | p (r : BitVec 4)
  deriving DecidableEq, Repr

/-- What a landing entry still waits for (R39, R40). -/
inductive LandWait
  /-- The data has arrived. -/
  | here
  /-- Bytes `base` to `base + len - 1` of the value of outstanding access `id`, to be sign-extended or not. -/
  | memory (id base len : Nat) (signed : Bool)
  /-- The status of SUB or UNSUB operation `op`, still awaited (R199). -/
  | answer (op : Nat)
  deriving DecidableEq, Repr

/-- One result that is landing (R35 to R40). -/
structure Landing where
  /-- The register it lands in. -/
  dest : Dest
  /-- The sequence position from which it is read. -/
  pos : Nat
  /-- The value; a g or p result uses the low 64 bits. -/
  data : BitVec 512
  /-- FFLAGS bits that become visible with it (R86). -/
  flags : BitVec 6
  /-- What it waits for. -/
  wait : LandWait
  /-- Whether it occupies a landing-buffer entry (landing distance 2 or more, R38). -/
  buffered : Bool
  deriving DecidableEq, Repr

/-- One hardware loop record (R115); addresses are full window addresses. -/
structure LoopRec where
  start : Word
  exit : Word
  count : Word
  lc : Word
  deriving DecidableEq, Repr

/-- A transfer whose delay bundles are still to execute (R41, R43). -/
structure Xfer where
  /-- The target when the transfer is taken; `none` when it is not. -/
  target : Option Word
  /-- Delay bundles left. -/
  left : Nat
  /-- Whether loops that the target leaves become inactive: BR, BRN and JMP (R118). -/
  endsLoops : Bool
  /-- Whether it is an ERET (R224, R353). -/
  eret : Bool
  deriving DecidableEq, Repr

/-- STATE of a handle (R169). -/
inductive HState | idle | queued | running | done | suspended | faulted | stopped | killed
  deriving DecidableEq, Repr

/-- The state of a macro handle (R169, R170). -/
structure Handle where
  /-- OP: the op code of the macro. -/
  op : BitVec 5 := 0
  /-- ENG. -/
  eng : BitVec 3 := 0
  /-- CODE. -/
  code : BitVec 4 := 0
  /-- STATE. -/
  st : HState := .idle
  /-- XTAG. -/
  xtag : BitVec 16 := 0
  /-- FLAGS, in FFLAGS bit order. -/
  flags : BitVec 5 := 0
  /-- TOTAL. -/
  total : BitVec 32 := 0
  /-- PROG. -/
  prog : BitVec 32 := 0
  /-- The copy of the 64-byte descriptor. -/
  desc : BitVec 512 := 0
  /-- The window offset the descriptor was read from. -/
  daddr : BitVec 19 := 0
  /-- The variant field of the slot. -/
  variant : BitVec 3 := 0
  /-- The format entry copied under R99. -/
  fmt : Word := 0
  /-- The queue mask of QFENCE. -/
  qmask : BitVec 7 := 0
  /-- Bytes 96 to 127 of the handle's save layout: the shape table of TMMG, or the D and B values of STEER and MERGE;
  the pattern of SETM stands in the place of B. -/
  aux : BitVec 256 := 0
  /-- The identity of the macro that the handle names (the model's own name for it). -/
  uid : Nat := 0
  /-- The accesses of slots issued before it: those whose identity is below (R174). -/
  entered : Nat := 0
  /-- For a QFENCE, the operations ahead of it in the queues that it names, as it was entered (R291). -/
  ahead : List Nat := []
  deriving DecidableEq, Repr

/-- A trap as its record names it (R348, R351). -/
structure TrapRec where
  /-- CODE. -/
  code : BitVec 8
  /-- SLOT, 1 to 8; 0 when no slot is named. -/
  slot : BitVec 4
  /-- SBAD. -/
  bad : Word
  /-- SDET. -/
  det : Word
  /-- HANDLE, when code 0x08 names one. -/
  handle : Option (BitVec 3)
  /-- OP of the handle. -/
  op : BitVec 5
  /-- MCODE. -/
  mcode : BitVec 4
  /-- ELEM. -/
  elem : BitVec 32
  /-- The address of the bundle. -/
  baddr : Word
  deriving DecidableEq, Repr

/-- Whether a berth runs a binding, and what holds it (R245, R246, R350, R366). -/
inductive BStatus
  /-- No binding. -/
  | free
  /-- Bound, or, for the supervisor berth, handling a trap. -/
  | bound
  /-- Trapped; its pending results and its save are outstanding (R350). -/
  | trapSaving
  /-- Trapped and saved. -/
  | trapped
  /-- Pre-empted by TPRE; its save is outstanding (R366). -/
  | preSaving
  /-- Held by TPRE and saved. -/
  | held
  /-- Ended, but a macro still uses its z tiles (R173, R246). -/
  | ending
  /-- Moved here from a retired tile, its frame's presence bits not yet those of the save (R346). -/
  | moving
  deriving DecidableEq, Repr

/-- What ends a bundle after it has retired (R123, R124, R223, R224). -/
inductive After
  | nothing
  | done
  | yield
  | softTrap (det : Word)
  | breakpoint (det : Word)
  | halt
  /-- A LOOP with count 0: fetch goes on at its exit (R116). -/
  | jump (a : Word)
  deriving DecidableEq, Repr

/-- The architectural state of one berth. -/
structure Berth where
  /-- g0 to g63 (R31). -/
  g : Vector Word 64 := Vector.replicate 64 0
  /-- v0 to v31. -/
  v : Vector (BitVec 512) 32 := Vector.replicate 32 0
  /-- p0 to p15. -/
  p : Vector Word 16 := Vector.replicate 16 0
  /-- z0 to z3, element (row, column) at bit 32 × (16 × row + column) (R180). -/
  z : Vector (BitVec 16384) 4 := Vector.replicate 4 0
  /-- FFLAGS (R66). -/
  fflags : BitVec 6 := 0
  /-- FCTL bit 0, flush-to-zero (R83). -/
  ftz : Bool := false
  /-- VLT (R150). -/
  vlt : BitVec 12 := 0
  /-- FMT0 to FMT15 (R97). -/
  fmt : Vector Word 16 := Vector.replicate 16 0
  /-- SHAPE0 to SHAPE3 (R344). -/
  shape : Vector Word 4 := Vector.replicate 4 0
  /-- TAG (R66). -/
  tag : BitVec 32 := 0
  /-- The bound frame, which FPTR names (R237). -/
  frame : BitVec 8 := 0
  /-- The address of the next bundle (R237, R245). -/
  ip : Word := 0
  /-- The sequence position of the next bundle (R35). -/
  pos : Nat := 0
  /-- RETB (R412). -/
  retb : Word := 0
  /-- Results that are landing, in the order of issue (R37). -/
  landing : List Landing := []
  /-- Active loop records, the innermost first (R115). -/
  loops : List LoopRec := []
  /-- The transfer whose delay bundles are executing (R41). -/
  xfer : Option Xfer := none
  /-- The wait latch (R221). -/
  latch : Bool := false
  /-- Outstanding ARRIVEs, at most 4 (R220). -/
  arrives : Nat := 0
  /-- The pending-barrier words: address, captured GEN (R221, R352). -/
  barrier : Option (BitVec 56 × BitVec 32) := none
  /-- m0 to m7. -/
  handles : Vector Handle 8 := Vector.replicate 8 ({} : Handle)
  /-- Binding state. -/
  status : BStatus := .free
  /-- The identity of the binding. -/
  bind : Nat := 0
  /-- Pending berth faults, oldest first (R349). -/
  faults : List TrapRec := []
  /-- The trap that stopped the berth. -/
  trap : Option TrapRec := none
  /-- What the bundle being issued does after it retires. -/
  after : After := .nothing
  /-- STOPPED handles of the restored berth that are still to be resumed, before its first bundle (R193). -/
  resume : List (BitVec 3) := []
  /-- CYC at the bind, whose zeroing takes that cycle and the 11 after it (R245). -/
  boundAt : Option Word := none
  deriving DecidableEq, Repr

/-- The binding on whose behalf something is sent or performed. -/
structure Issuer where
  berth : Fin 5
  bind : Nat
  tidx : BitVec 16
  tag : BitVec 32
  frame : BitVec 8
  deriving DecidableEq, Repr

/-! ### Packets (R251, R252) -/

/-- Where a packet is. -/
inductive PLoc
  /-- At the input of router `r`. -/
  | router (r : Nat)
  /-- At its summit, or at the home side of a unicast grant or open, waiting to be applied (R259, R268). -/
  | summit (r : Nat)
  /-- In the ingress buffer of tile `t` (R265). -/
  | tile (t : Nat)
  /-- At quay `q` (R264). -/
  | quay (q : Nat)
  /-- At Niesk port `q`, leaving the module (R391). -/
  | niesk (q : Nat)
  /-- At the reduction node of port `n % 8` of router `n / 8` (R397). -/
  | node (n : Nat)
  deriving DecidableEq, Repr

/-- An output port that a packet requests (R379): the cycles in which it has requested so far, and its place in the port's
order of promotion once it is promoted. -/
structure Want where
  port : Port
  /-- Whether the hop goes by the detour half of the next input (R388). -/
  det : Bool := false
  age : Nat := 0
  prom : Option Nat := none
  /-- Flits of this branch that the port has carried, once it has been granted. -/
  sent : Option Nat := none
  deriving DecidableEq, Repr

/-- A translation that a tile waits for (R312, R313). -/
structure XMiss where
  job : BitVec 12
  /-- Virtual address in 64 KiB units. -/
  vpage : Nat
  /-- Whether the access needs W (R317). -/
  write : Bool
  deriving DecidableEq, Repr

/-- A translation held in a TLB or in a spur translation cache (R312). -/
structure TlbEnt where
  job : BitVec 12
  /-- Virtual page number in units of its size. -/
  page : Nat
  /-- log2 of the page size: 16, 21 or 30. -/
  bits : Nat
  /-- The leaf entry (R310). -/
  leaf : Word
  deriving DecidableEq, Repr

/-- What a memory transaction asks for or answers, beyond its MKIND (R381; log entry 65). -/
inductive MemVerb
  /-- Sectors read or written. -/
  | data
  /-- Dirty bytes of a slice written back to their homes: of every sector, or of a run of `n`. -/
  | flush (all : Bool)
  /-- A read-modify-write (R143, R144). -/
  | rmw (op : AmoOp) (b c : Word)
  /-- The lock of a granule read, or written (R148). -/
  | readLock
  | writeLock (lock : BitVec 4)
  /-- A walk for a miss, and its answer: the translation, or none. -/
  | walk (m : XMiss)
  | found (e : Option TlbEnt)
  deriving DecidableEq, Repr

/-- What makes a packet a memory transaction (R377, R381): MKIND, TID and what the second flit holds, the address and attributes or the
status (log entry 65); its sector flits stand in the packet's payload. -/
structure MemTx where
  mkind : BitVec 4
  tid : BitVec 20
  verb : MemVerb := .data
  /-- The physical key of the first byte. -/
  key : Nat := 0
  /-- Sectors read, written or flushed, or bytes of an RMW. -/
  n : Nat := 0
  /-- The bytes of a sector that a write carries. -/
  mask : BitVec 32 := 0
  /-- Whether the page is SO, or memory-side. -/
  so : Bool := false
  mside : Bool := false
  /-- Whether the page is UN (R282). -/
  un : Bool := false
  /-- The value of an RMW response, and the locks of the sectors of a read response. -/
  value : Word := 0
  locks : List (BitVec 4) := []
  deriving DecidableEq, Repr

/-- A packet: the fields of its header, name and tail flits, its payload flits, and its place (R251, R381). -/
structure Packet where
  /-- RV and RORIG. -/
  rorig : Option (BitVec 17) := none
  /-- DMOD. -/
  dmod : BitVec 19 := 0
  /-- OMOD. -/
  omod : BitVec 19 := 0
  /-- SSEQ. -/
  sseq : BitVec 20 := 0
  /-- OSEQ. -/
  oseq : BitVec 32 := 0
  /-- DEST. -/
  dest : BitVec 17 := 0
  /-- ORIG. -/
  orig : BitVec 17 := 0
  /-- GEN. -/
  gen : BitVec 8 := 0
  /-- JOB. -/
  job : BitVec 12 := 0
  /-- SERVE. -/
  serve : Bool := false
  /-- DIR. -/
  dir : Bool := false
  /-- VC. -/
  vc : BitVec 2 := 0
  /-- TYPE. -/
  typ : BitVec 4 := 0
  /-- AUX. -/
  aux : BitVec 32 := 0
  /-- STATUS. -/
  status : BitVec 4 := 0
  /-- SLOT. -/
  slot : BitVec 4 := 0
  /-- FRAME. -/
  frame : BitVec 8 := 0
  /-- MODE. -/
  mode : BitVec 2 := 0
  /-- COL1. -/
  col1 : BitVec 20 := 0
  /-- ROW1. -/
  row1 : BitVec 20 := 0
  /-- TAG. -/
  tag : BitVec 32 := 0
  /-- NAME. -/
  name : Word := 0
  /-- Payload flits. -/
  payload : List (BitVec 256) := []
  /-- Whether CHECK no longer fits the flits (R265). -/
  corrupt : Bool := false
  /-- POISON. -/
  poison : Bool := false
  /-- Its place. -/
  place : PLoc := .router 0
  /-- The port it arrived by. -/
  inp : Port := .l
  /-- Output ports it still requests. -/
  want : List Want := []
  /-- Whether this router has taken it in: checked it, and for a PUB, SUB or UNSUB done its table's work. -/
  routed : Bool := false
  /-- Flits still to arrive over the link that it crosses (R385). -/
  left : Nat := 0
  /-- Of those, flits that the link carries already: their room is taken (R438). -/
  due : Nat := 0
  /-- The output port that still sends it flits (R379). -/
  fed : Option (Nat × Port) := none
  /-- Discarded: its flits are dropped as they arrive. -/
  void : Bool := false
  /-- The summit of the SUB that a TBLFULL answer answers (R258; log entry 31). -/
  full : Option (BitVec 17) := none
  /-- What makes it a memory transaction; none for a Broak packet (R381). -/
  mt : Option MemTx := none
  /-- Whether ORIG or DEST stands for the reduction node of that router's border port (R396; log entry 31). -/
  node : Option Port := none
  /-- Whether it is in the detour half of its buffers (R388). -/
  detour : Bool := false
  /-- Routers passed and the ports they were entered by, latest first; the way back of an answer (R258). -/
  path : List (Nat × Port) := []
  deriving DecidableEq, Repr

/-! ### Frames -/

/-- STATE of a frame (R237). -/
inductive FState | free | wait | ready | bound | saved
  deriving DecidableEq, Repr

/-- Where a fill came from (R411). -/
inductive Origin
  /-- ORIG and OSEQ of a delivery, and whether it came from a reduction node or from another module. -/
  | packet (orig : BitVec 17) (oseq : BitVec 32) (far : Bool)
  /-- A local binding's FSLOT. -/
  | binding (bind : Nat)
  deriving DecidableEq, Repr

/-- One frame of the frame area (R237). -/
structure Frame where
  /-- STATE. -/
  st : FState := .free
  /-- ECLS. -/
  ecls : BitVec 2 := 0
  /-- URG. -/
  urg : Bool := false
  /-- TIDX. -/
  tidx : BitVec 16 := 0
  /-- TAG. -/
  tag : BitVec 32 := 0
  /-- AGE, 0 to 32. -/
  age : BitVec 6 := 0
  /-- LAST. -/
  last : BitVec 4 := 0
  /-- NSLOT. -/
  nslot : BitVec 5 := 0
  /-- REQ. -/
  req : BitVec 16 := 0
  /-- PRES. -/
  pres : BitVec 16 := 0
  /-- IP. -/
  ip : BitVec 19 := 0
  /-- LCYC. -/
  lcyc : Word := 0
  /-- The slot words. -/
  slots : Vector Word 16 := Vector.replicate 16 0
  /-- The origin of the fill named by LAST (R411). -/
  origin : Option Origin := none
  /-- The slots that subscriptions have filled (R346). -/
  deliv : BitVec 16 := 0
  deriving DecidableEq, Repr

/-- What a fill is (R239, R240). -/
inductive FillKind | fslot | firing | delivery
  deriving DecidableEq, Repr

/-- A fill on its way to the frame engine (R239). -/
structure Fill where
  frame : BitVec 8
  slot : BitVec 4
  value : Word
  kind : FillKind
  origin : Option Origin
  deriving DecidableEq, Repr

/-- A SPAWN or an emission that waits for a frame (R238): its template, its tag, and the slot and token of an
emission with the chain that waits. -/
structure SpawnWait where
  tidx : BitVec 16
  tag : BitVec 32
  token : Option (BitVec 4 × Word) := none
  chain : Option (BitVec 2) := none
  deriving DecidableEq, Repr

/-- A binding in the tile's history (R411). -/
structure BindRec where
  bind : Nat
  tidx : BitVec 16
  tag : BitVec 32
  cyc : Word
  last : BitVec 4
  lcyc : Word
  origin : Option Origin
  deriving DecidableEq, Repr

/-! ### Counter chains (R120 to R122) -/

/-- One counter chain. -/
structure Chain where
  /-- CCTL.PAUSED. -/
  paused : Bool := false
  /-- CCTL.DONE. -/
  done : Bool := false
  /-- CCTL.RUN. -/
  run : Bool := false
  /-- CCTL.ISLOT. -/
  islot : BitVec 4 := 0
  /-- CCTL.DEPTH. -/
  depth : BitVec 2 := 0
  /-- CLIM. -/
  clim : Word := 0
  /-- CTMPL. -/
  ctmpl : BitVec 16 := 0
  /-- CTAG. -/
  ctag : BitVec 32 := 0
  /-- CPOS. -/
  cpos : Word := 0
  /-- CEMIT. -/
  cemit : Word := 0
  deriving DecidableEq, Repr

/-! ### Engines -/

/-- A contiguous range of bytes: window offsets or virtual addresses. -/
structure Range where
  /-- Whether the bytes lie in the window. -/
  win : Bool
  lo : Nat
  /-- One past the last byte. -/
  hi : Nat
  deriving DecidableEq, Repr

/-- An entry of the range scoreboard (R134, R174, R197). -/
structure ScoreEntry where
  owner : Nat
  /-- Whether a macro holds it, or an N slot. -/
  mac : Bool
  ranges : List Range
  deriving DecidableEq, Repr

/-- A message that the egress engine is to stage and inject (R201, R205, R211). -/
structure Msg where
  uid : Nat
  /-- STRM or PUB. -/
  strm : Bool
  name : Word
  tag : BitVec 32
  /-- A steer header before the bytes. -/
  head : Option (BitVec 256)
  /-- Window offset of the bytes. -/
  src : Nat
  /-- Length in bytes. -/
  len : Nat
  /-- The bytes once they are copied; `none` before. -/
  bytes : Option (List Byte)
  sseq : BitVec 20
  /-- The binding that issued it. -/
  who : Issuer
  deriving DecidableEq, Repr

/-- An operation in an engine's queue (R167, R188). -/
inductive QItem
  /-- The macro of this identity. -/
  | mac (uid : Nat)
  /-- A QFENCE of this identity. -/
  | fence (uid : Nat)
  /-- A message of the egress engine. -/
  | msg (m : Msg)
  deriving DecidableEq, Repr

/-- A macro detached from its ended binding (R173). -/
structure Detached where
  h : Handle
  /-- The handle it was issued on. -/
  m : BitVec 3
  who : Issuer
  job : BitVec 12
  inc : BitVec 8
  deriving DecidableEq, Repr

/-- The resident stationary tile: its identity and the columns loaded so far, 16 when it is complete (R178, R179). -/
structure Resident where
  /-- The 64 descriptor bytes with START cleared. -/
  desc : BitVec 512
  /-- The format, as an entry of R97 without its NSP. -/
  fmt : Word
  /-- Column by column, the value at each logical position; positions masked off hold +0 (R96). -/
  cols : List (List FVal)
  deriving DecidableEq, Repr

/-- A message or a copy that waits for its acknowledgement (R266). -/
structure Staged where
  pkt : Packet
  resends : Nat
  /-- The binding that issued it. -/
  who : Issuer
  inc : BitVec 8
  /-- Whether a stale report stopped it until the tables are refreshed (R200). -/
  stopped : Bool := false
  /-- Whether it was re-injected, or re-sent by a refresh, after a stale report or an advance (R200, R272). -/
  again : Bool := false
  deriving DecidableEq, Repr

/-! ### Subscriptions and streams (R203, R257, R268, R269) -/

/-- What a subscription's status goes to (R199). -/
inductive SubTo
  /-- It lands in a berth's register. -/
  | berth (b : Fin 5) (bind : Nat)
  /-- It is posted unless it is OK. -/
  | post
  /-- It is dropped. -/
  | drop
  deriving DecidableEq, Repr

/-- A local subscription record (R257) with the counts of R202 and the answers it awaits. -/
structure SubRec where
  /-- The window address of the record that SUB named; 0 for a template subscription. -/
  addr : Word
  /-- The B operand: tag, frame and slot. -/
  bop : Word
  tens : BitVec 24
  mode : BitVec 2
  row0 : BitVec 20
  row1 : BitVec 20
  col0 : BitVec 20
  col1 : BitVec 20
  /-- DST. -/
  dst : BitVec 19
  /-- CAP. -/
  cap : BitVec 16
  /-- Names counted, by their index in the range (R202). -/
  counted : List Nat
  /-- Whether a stream message has been deposited, and the next SSEQ and total flits (R269). -/
  strm : Option (BitVec 20 × Nat)
  /-- Stream messages held ahead of a gap. -/
  held : List Packet
  deriving DecidableEq, Repr

/-- A SUB or UNSUB whose answers are awaited (R199, R258). -/
structure SubOp where
  op : Nat
  unsub : Bool
  sub : SubRec
  /-- Summits whose answer is awaited, with the OSEQ of the packet sent. -/
  waits : List (BitVec 17 × BitVec 32)
  /-- Highest status so far. -/
  status : BitVec 4
  goal : SubTo
  tidx : BitVec 16
  inc : BitVec 8
  deriving DecidableEq, Repr

/-- A stream's send window (R205). -/
structure StreamTx where
  name : Word
  window : Nat
  sseq : BitVec 20
  /-- The receiver, once a grant has named it (R268). -/
  receiver : Option (BitVec 17) := none
  deriving DecidableEq, Repr

/-! ### Caches and translation (R307, R312) -/

/-- A sector held in a tile data cache or a spur cache. -/
structure Sector where
  /-- Physical sector number, with the home module of a remote page above it. -/
  key : Nat
  data : BitVec 256
  /-- Bytes that hold data. -/
  have_ : BitVec 32
  /-- Bytes not yet written back. -/
  dirty : BitVec 32
  /-- The granule's lock as it came with the sector; none when no clean byte came (R320). -/
  lock : Option (BitVec 4)
  /-- Whether a UN page's access brought it (R282). -/
  un : Bool := false
  deriving DecidableEq, Repr

/-- A translation miss of a tile, and its walk request once it has been sent. -/
structure Miss where
  m : XMiss
  tid : Option (BitVec 20) := none
  deriving DecidableEq, Repr

/-- Dirty bytes on their way from a cache to the next level: they stay readable until they are acknowledged. -/
structure WriteBack where
  tid : BitVec 20
  /-- The bytes: `have_` and `dirty` are those on their way. -/
  sector : Sector
  deriving DecidableEq, Repr

/-! ### Barriers (R219 to R221) -/

/-- An ARRIVE on its way to the barrier's home (R220). -/
structure Arrival where
  t : Nat
  b : Fin 5
  bind : Nat
  /-- Template, tag, frame of the binding, and the job with its incarnation. -/
  tidx : BitVec 16
  tag : BitVec 32
  frame : BitVec 8
  job : BitVec 12
  inc : BitVec 8
  addr : Word
  /-- A window object's offset, or a physical address. -/
  win : Bool
  pa : Nat
  cap : BitVec 32
  deriving DecidableEq, Repr

/-! ### Outstanding accesses (R277, R284, R312, R317, R377) -/

/-- What an outstanding access does to its bytes. -/
inductive MemWhat
  | load
  | store (bs : List Byte)
  /-- AMO, AMOS and RED: the operation and its operands (R143, R144). -/
  | rmw (op : AmoOp) (b c : Word)
  /-- MCST: every replica (R145). -/
  | mcst (bs : List Byte)
  | tagld
  | tagst (lock : BitVec 4)
  /-- FENCE (R140). -/
  | fence
  /-- The release of a save, of a trap or of a QFENCE (R188, R295). -/
  | release
  /-- The release of an ARRIVE, with the arrival that it sends (R220). -/
  | arrive (a : Arrival)
  /-- FLUSH and INVAL over a run of bytes (R141). -/
  | clean (sc : Scope) (drop : Bool)
  /-- PREF (R142). -/
  | pref
  deriving DecidableEq, Repr

/-- How far an outstanding access has come. -/
inductive MemPhase
  /-- Not started. -/
  | waiting
  /-- A release writes back the dirty bytes of the tile data cache, then those of the spur cache. -/
  | cleanTile
  | cleanSpur
  /-- Its own sectors are written back to the spur cache, then to their homes: before an access performed at the home, after a
  store-release. -/
  | settleTile
  | settleSpur
  /-- The access itself has been sent. -/
  | sent
  deriving DecidableEq, Repr

/-- An outstanding access: one piece of an access of a slot (R130), or an order of a slot or an engine. -/
structure MemOp where
  /-- The access of which it is a piece. -/
  id : Nat
  b : Fin 5
  bind : Nat
  /-- The macro or QFENCE whose access it is; none for a slot's. -/
  mac : Option Nat := none
  /-- The effective address of its first byte, how many bytes, and their place in the access. -/
  ea : Word := 0
  n : Nat := 0
  off : Nat := 0
  /-- Whether it reaches the window, and through the swizzled view. -/
  win : Bool := false
  swz : Bool := false
  /-- The leaf entry and the physical key, as they were at issue until it starts. -/
  leaf : Word := 0
  key : Nat := 0
  what : MemWhat
  /-- The scopes of its release and of its acquire. -/
  rel : Option Scope := none
  acq : Option Scope := none
  phase : MemPhase := .waiting
  /-- Transactions that it awaits. -/
  waits : List (BitVec 20) := []
  /-- Whether what it reads has been overtaken by a write-back or an acquire of its tile: it is then read again. -/
  stale : Bool := false
  deriving DecidableEq, Repr

/-- Sectors that an engine has asked for, and their bytes once they have come; a burst serves several elements (R378). -/
structure Fetch where
  /-- The macro. -/
  uid : Nat
  tid : BitVec 20
  /-- The first physical sector, and how many. -/
  sec : Nat
  n : Nat
  /-- One past the last element that it serves. -/
  till : Nat
  /-- Whether the sectors enter the tile data cache. -/
  keep : Bool
  /-- Whether a write-back of the tile has overtaken it. -/
  stale : Bool := false
  data : Option (List (BitVec 256)) := none
  deriving DecidableEq, Repr

/-- Where a scratchpad write came from (R137). -/
inductive MarkSrc
  | berth (b : Fin 5)
  /-- The macro of this identity. -/
  | mac (uid : Nat)
  | deposit
  | bank
  /-- An expert byte of a claim (R340). -/
  | claim
  deriving DecidableEq, Repr

/-- The view mark of a 64-byte line: the latest write's view and source, the berths a join has covered, and the bytes
before the write (R137). -/
structure ViewMark where
  /-- Physical line number. -/
  line : Nat
  /-- Written through the swizzled view. -/
  swz : Bool
  src : MarkSrc
  /-- Whether a release of scope tile or wider has covered the write. -/
  released : Bool
  /-- Whether each berth is covered by a join. -/
  joined : BitVec 5
  /-- Bytes of the line written and not joined. -/
  mask : BitVec 64
  /-- The line before the write. -/
  old : BitVec 512
  deriving DecidableEq, Repr

/-! ### Event bank (R327 to R333) -/

/-- A neuron entry: its fields (TSU computed from U) and its last-update tick (R331). -/
structure Neuron where
  ref : Bool := false
  fired : Bool := false
  sat : Bool := false
  set : BitVec 6 := 0
  pot : BitVec 32 := 0
  u : BitVec 32 := 0
  deriving DecidableEq, Repr

/-- An event in the time-ordered queue (R333). -/
structure Ev where
  ts : BitVec 32
  ltn : BitVec 17
  seq : BitVec 32
  entry : BitVec 13
  /-- The neuron index addressed. -/
  neuron : BitVec 20
  w : BitVec 32
  /-- Whether the tile's own bank posted it. -/
  own : Bool
  /-- The population it was posted to. -/
  pop : BitVec 24
  /-- The order of arrival of a late event. -/
  late : Option Nat
  deriving DecidableEq, Repr

/-- The event bank of a tile. -/
structure Bank where
  /-- T. -/
  t : BitVec 32 := 0
  /-- F: the first tick not yet applied before the advance in progress began (R333). -/
  first : BitVec 32 := 1
  /-- EVCTL.SRC. -/
  src : Bool := false
  /-- EVCTL.LATE. -/
  late : Bool := false
  /-- EVDROP. -/
  drop : BitVec 32 := 0
  /-- EVANS. -/
  ans : BitVec 32 := 0
  /-- EVWL0 to EVWL3. -/
  wl : Vector Word 4 := Vector.replicate 4 0
  /-- EVWH0 to EVWH3. -/
  wh : Vector Word 4 := Vector.replicate 4 0
  /-- Entries that differ from the scrubbed entry. -/
  entries : SMap Neuron := []
  /-- Parameter sets. -/
  psets : Vector (BitVec 256) 64 := Vector.replicate 64 0
  /-- Queued events, in order of arrival. -/
  q : List Ev := []
  deriving DecidableEq, Repr

/-! ### The tile -/

/-- Where a tile stands in a GATE (R367). -/
inductive GatePhase
  | idle
  /-- G1 and G2: the sources are gated and the berths stop. -/
  | stopping
  /-- G3. -/
  | draining
  /-- G4: the save block is written, and the release after it is under way. -/
  | saving
  /-- G5. -/
  | gated
  deriving DecidableEq, Repr

/-- One tile. -/
structure Tile where
  /-- Powered (R434). -/
  powered : Bool := false
  /-- Retired, failed or isolated (R374, R375, R419). -/
  retired : Bool := false
  /-- In a tile fault (R364). -/
  faulted : Bool := false
  /-- The job that holds the tile; 0 for none (R233). -/
  job : BitVec 12 := 0
  /-- Gate phase. -/
  gate : GatePhase := .idle
  /-- Berths moved here that wait to be restored: the presence bits awaited, none for the supervisor berth, and the state that
  each takes then (R346). -/
  moved : List (Fin 5 × Option (BitVec 16) × BStatus) := []
  /-- Berths 0 to 3 and the supervisor berth, 4. -/
  berths : Vector Berth 5 := Vector.replicate 5 ({} : Berth)
  /-- Scratchpad bytes by linear offset (R127); an unlisted byte reads 0. -/
  pad : SMap Byte := []
  /-- Frames that are not in the state the scrub leaves. -/
  frames : SMap Frame := []
  /-- Fills on their way to the frame engine (R239). -/
  fills : List Fill := []
  /-- SPAWNs and emissions that wait for a frame, in order (R238). -/
  spawns : List SpawnWait := []
  /-- The job berth that issued last (R247). -/
  lastBerth : BitVec 2 := 3
  /-- Bubble cycles left (R34). -/
  bubbles : Nat := 0
  /-- The berth whose absent result freezes the core (R39). -/
  frozen : Option (Fin 5) := none
  /-- Sectors of the tile data cache, most recently used first. -/
  tdc : List Sector := []
  /-- TLB entries, most recently used first. -/
  tlb : List TlbEnt := []
  /-- Translation misses that are not answered. -/
  misses : List Miss := []
  /-- Dirty bytes on their way to the spur cache. -/
  wb : List WriteBack := []
  /-- Outstanding accesses, in program order for each binding. -/
  ops : List MemOp := []
  /-- What the engines have asked for. -/
  fetches : List Fetch := []
  /-- The TID of the next memory transaction. -/
  nextTid : BitVec 20 := 0
  /-- View marks of scratchpad lines. -/
  marks : List ViewMark := []
  /-- The range scoreboard. -/
  score : List ScoreEntry := []
  /-- Matrix queue. -/
  qMatrix : List QItem := []
  /-- Gather/scatter queue. -/
  qGather : List QItem := []
  /-- Copy queues 0 to 3. -/
  qCopy : Vector (List QItem) 4 := Vector.replicate 4 []
  /-- Egress queue. -/
  qEgress : List QItem := []
  /-- Macros detached from ended bindings. -/
  detached : List Detached := []
  /-- The resident stationary tile. -/
  resident : Option Resident := none
  /-- The TMMG whose current run's tile is loaded; 0 for none (R185). -/
  loadedFor : Nat := 0
  /-- Counter chains 0 to 3. -/
  chains : Vector Chain 4 := Vector.replicate 4 ({} : Chain)
  /-- The chain whose turn comes next (R122). -/
  chainTurn : BitVec 2 := 0
  /-- The event bank. -/
  bank : Bank := {}
  /-- Steer counters that are not 0. -/
  steer : SMap (BitVec 32) := []
  /-- PBUB. -/
  pbub : BitVec 48 := 0
  /-- FRZC. -/
  frzc : BitVec 48 := 0
  /-- VHAZ. -/
  vhaz : BitVec 48 := 0
  /-- LATEV. -/
  latev : BitVec 48 := 0
  /-- The packet counter of the egress engine (R215, R251). -/
  oseq : BitVec 32 := 0
  /-- Local subscription records, at most 256. -/
  subs : List SubRec := []
  /-- SUB and UNSUB operations whose answers are awaited. -/
  subOps : List SubOp := []
  /-- Stream windows, at most 64. -/
  streams : List StreamTx := []
  /-- Copies that await acknowledgement. -/
  egress : List Staged := []
  /-- ORIG, RORIG and OSEQ of packets already applied here (R266). -/
  seen : List (BitVec 19 × Nat × BitVec 32) := []
  /-- Publications that its ingress engine has taken (R266). -/
  taken : List (BitVec 19 × Nat × BitVec 32) := []
  /-- SVEC. -/
  svec : BitVec 19 := 0
  /-- SSAVE. -/
  ssave : BitVec 19 := 0
  /-- SCAUSE. -/
  scause : Word := 0
  /-- SBAD. -/
  sbad : Word := 0
  /-- SDET. -/
  sdet : Word := 0
  /-- SBERTH. -/
  sberth : Word := 0
  /-- Trapped berths that wait for entry, oldest first (R350). -/
  trapQ : List (Fin 5) := []
  /-- The trap that the supervisor berth handles, of this berth. -/
  handling : Option (Fin 5) := none
  /-- DBGCTL.STOP. -/
  stop : Bool := false
  /-- DBGCTL.DUMP. -/
  dump : Bool := false
  /-- DBGCTL.DALL. -/
  dall : Bool := false
  /-- DBGSTAT.STOPPED. -/
  stopped : Bool := false
  /-- DBGSTAT.HALTED. -/
  halted : Bool := false
  /-- DBGSTAT.BPHIT. -/
  bphit : Bool := false
  /-- DBGSTAT.BPN. -/
  bpn : BitVec 2 := 0
  /-- SMPCFG. -/
  smpcfg : BitVec 11 := 0x010
  /-- CPCFG. -/
  cpcfg : BitVec 32 := 0x080
  /-- BP0A to BP3A. -/
  bpA : Vector Word 4 := Vector.replicate 4 0
  /-- BP0B to BP3B. -/
  bpB : Vector Word 4 := Vector.replicate 4 0
  /-- DUMPADDR. -/
  dumpaddr : BitVec 44 := 0
  /-- DUMPSTAT. -/
  dumpstat : BitVec 9 := 0
  /-- INDISC. -/
  indisc : BitVec 48 := 0
  /-- TRDROP. -/
  trdrop : BitVec 48 := 0
  /-- The berth sampled last. -/
  sampled : BitVec 3 := 4
  /-- CYC at the last sample. -/
  sampleCyc : Option Word := none
  /-- CYC at the core's last cycle. -/
  acted : Option Word := none
  /-- Qualifying firings since the last marker. -/
  markCount : Nat := 0
  /-- The latest 256 bindings, latest first. -/
  history : List BindRec := []
  /-- The bindings that made the latest 1,024 injections, latest first. -/
  injected : List (BitVec 32 × Nat) := []
  /-- Trace records that wait, at most 4. -/
  traceQ : List (BitVec 256) := []
  /-- Corrected errors since the last threshold record. -/
  corrected : Nat := 0
  /-- Whether its storage holds an uncorrectable word that a save meets (R369). -/
  badSave : Bool := false
  deriving DecidableEq, Repr

end Sys2Proof.Machine
end

