-- ==== Sys2Proof/Machine/State.lean ====
section
/-!
DEFINITION. Machine/State.lean: the state of the whole module: tiles, routers and links, spurs, fields, quays, memory,
the memory-system registers, the job table, reductions, the cairn controller, and what is in flight; and the state
right after reset, before power is applied (R426).
-/
namespace Sys2Proof.Machine

/-! ### Routers and links (R255, R379, R384 to R388) -/

/-- An entry of a name-match table (R255). -/
structure NmtEnt where
  /-- S: this router is the pattern's summit. -/
  isSummit : Bool
  mode : BitVec 2
  job : BitVec 12
  tens : BitVec 24
  summit : BitVec 17
  row0 : BitVec 20
  row1 : BitVec 20
  col0 : BitVec 20
  col1 : BitVec 20
  tag : BitVec 32
  /-- Counts of ports N, E, S, W, L, at most 63 each. -/
  cnt : Vector (BitVec 6) 5
  deriving DecidableEq, Repr

/-- One output port of a router (R379, R382). -/
structure OutPort where
  /-- The VC the weighted round robin points at, 1 to 3. -/
  ptr : BitVec 2 := 1
  /-- Credits of VC1 to VC3. -/
  credit : Vector (BitVec 4) 3 := Vector.replicate 3 0
  /-- The input that was granted last, by VC, for the round robin of inputs. -/
  rr : Vector (BitVec 3) 4 := Vector.replicate 4 4
  /-- The place that the next packet promoted here takes in the order of promotion. -/
  stamp : Nat := 0
  deriving DecidableEq, Repr

/-- A flit in a replay buffer (R384, R385). -/
structure LinkFlit where
  data : BitVec 256
  vc : BitVec 2
  fseq : BitVec 7
  deriving DecidableEq, Repr

/-- One mesh link as seen from a router: the sender toward the neighbour and the receiver from it (R384 to R387). -/
structure LinkEnd where
  /-- FSEQ of the next flit sent. -/
  fseq : BitVec 7 := 0
  /-- The replay buffer: flits that are not acknowledged, oldest first, at most 64. -/
  replay : List LinkFlit := []
  /-- The place in the replay buffer of the flit that the link carries next. -/
  next : Nat := 0
  /-- FSEQ expected from the neighbour. -/
  expect : BitVec 7 := 0
  /-- Whether a NAK for the expected flit is outstanding. -/
  nak : Bool := false
  /-- Resends of the oldest unacknowledged flit since the last progress. -/
  fails : Nat := 0
  /-- DEAD. -/
  dead : Bool := false
  /-- CRCERR. -/
  crcerr : BitVec 16 := 0
  /-- RESEND. -/
  resend : BitVec 16 := 0
  deriving DecidableEq, Repr

/-- One router. -/
structure Router where
  /-- Powered off with its retired tile (R375, R434). -/
  dead : Bool := false
  /-- The wafer generation it has taken (R271). -/
  gen : BitVec 8 := 0
  /-- The name-match table: at most 256 entries, each in its place; a place that is free or lies past the end holds none (R255). -/
  nmt : List (Option NmtEnt) := []
  /-- The SUB and UNSUB packets that this router has counted: a packet received twice counts once (R266). -/
  counted : List ((BitVec 19 × Nat × BitVec 32) × BitVec 17) := []
  /-- Output ports N, E, S, W, L. -/
  ports : Vector OutPort 5 := Vector.replicate 5 ({} : OutPort)
  /-- Links N, E, S, W. -/
  links : Vector LinkEnd 4 := Vector.replicate 4 ({} : LinkEnd)
  /-- MALF. -/
  malf : BitVec 32 := 0
  deriving DecidableEq, Repr

/-! ### Spurs (R261, R262, R268, R307, R312) -/

/-- A retained publication (R261). -/
structure Retained where
  job : BitVec 12
  name : Word
  tag : BitVec 32
  payload : List (BitVec 256)
  /-- Summit that performed it. -/
  summit : BitVec 17
  /-- Tick at which it was performed. -/
  tick : BitVec 32
  keep : BitVec 32
  deriving DecidableEq, Repr

/-- A stream's record at its summit (R268). -/
structure StreamRec where
  job : BitVec 12
  name : Word
  summit : BitVec 17
  receiver : Option (BitVec 17)
  sender : Option (BitVec 17)
  /-- Flits granted and held until the sender is known. -/
  held : Nat
  deriving DecidableEq, Repr

/-- A request that a slice of a spur cache answers once its homes have answered (R307). -/
structure SliceRead where
  /-- The tile that holds the slice. -/
  tile : Nat
  /-- The request that it serves. -/
  req : Packet
  /-- Reads of sectors that are outstanding. -/
  waits : List (BitVec 20 × Nat)
  /-- Sectors at hand: their bytes and locks. -/
  got : List (Nat × BitVec 256 × BitVec 4)
  /-- Whether a write-back or an acquire has overtaken it: it is then read again. -/
  stale : Bool := false
  deriving DecidableEq, Repr

/-- A write-back that a slice has been asked for and that waits for its homes. -/
structure SliceAck where
  tile : Nat
  req : Packet
  waits : List (BitVec 20)
  deriving DecidableEq, Repr

/-- One spur cache. -/
structure Spur where
  /-- The job that holds the spur; 0 for none. -/
  job : BitVec 12 := 0
  /-- Sectors of the spur cache, most recently used first. -/
  sectors : List Sector := []
  /-- Reads of the slices that their homes have not answered. -/
  reads : List SliceRead := []
  /-- Write-backs of the slices that their homes have not acknowledged, with the slice's tile. -/
  wb : List (Nat × WriteBack) := []
  /-- Requests that a slice acknowledges once its own write-backs are acknowledged. -/
  acks : List SliceAck := []
  /-- Retained publications, oldest first. -/
  retained : List Retained := []
  /-- Stream records of the summits of the spur. -/
  streams : List StreamRec := []
  /-- The spur translation cache. -/
  tc : List TlbEnt := []
  /-- RETEV. -/
  retev : BitVec 48 := 0
  deriving DecidableEq, Repr

/-! ### Fields (R383, R409, R412 to R415, R432, R433) -/

/-- A static stream route (R268): its stream, and the links that it takes. -/
structure Route where
  job : BitVec 12
  name : Word
  sender : BitVec 17
  receiver : BitVec 17
  hops : List (Nat × Port)
  deriving DecidableEq, Repr

/-- One field. -/
structure Field where
  /-- Powered (R432). -/
  powered : Bool := false
  /-- CYC. -/
  cyc : Word := 0
  /-- W1, W2, W3. -/
  w1 : BitVec 4 := 1
  w2 : BitVec 4 := 4
  w3 : BitVec 4 := 1
  /-- ARBA. -/
  arba : BitVec 10 := 64
  /-- LNKCFG.ACKTO. -/
  ackto : BitVec 16 := 4096
  /-- LNKCFG.NRETRY. -/
  nretry : BitVec 4 := 8
  /-- FLDSTAT.SWEEP. -/
  sweep : Bool := false
  /-- FLDSTAT.DEAD. -/
  deadLinks : BitVec 16 := 0
  /-- DETOUR. -/
  detour : BitVec 32 := 0
  /-- Whether a sweep has written the detour tables, and the tree of live links that the last one wrote them from: for each
  marked router but the root, by its index, the port toward its parent (R374, R388). -/
  swept : Bool := false
  tree : SMap (BitVec 3) := []
  /-- Static stream routes (R268). -/
  routes : List Route := []
  /-- TRBASE. -/
  trbase : Word := 0
  /-- TRLOGN. -/
  trlogn : BitVec 5 := 10
  /-- TRPROD. -/
  trprod : BitVec 32 := 0
  /-- TRCONS. -/
  trcons : BitVec 32 := 0
  /-- TRDROPF. -/
  trdropf : BitVec 48 := 0
  /-- TRFIRE. -/
  trfire : BitVec 16 := 0xFFFF
  /-- TRSEL0 to TRSEL7. -/
  trsel : Vector Word 8 := Vector.replicate 8 0
  /-- The trace port's queue, at most 64 records. -/
  traceQ : List (BitVec 256) := []
  /-- The next marker number (R411). -/
  marker : BitVec 16 := 0
  /-- EWIN. -/
  ewin : BitVec 5 := 20
  /-- WLOG of the window in progress (R415). -/
  wlog : BitVec 5 := 20
  /-- ESOFT. -/
  esoft : BitVec 32 := 0
  /-- EHARD. -/
  ehard : BitVec 32 := 0
  /-- EJSEL. -/
  ejsel : BitVec 12 := 0
  /-- The field's energy since power-up, in 2^-32 mJ. -/
  energy : Nat := 0
  /-- The same at the start of the window in progress. -/
  energyBase : Nat := 0
  /-- Each job's energy on the field since its START, in 2^-32 mJ. -/
  jobEnergy : SMap Nat := []
  /-- The same at the start of the window in progress. -/
  jobBase : SMap Nat := []
  /-- Activity not yet added, by class and job (class × 4096 + job). -/
  activity : SMap Nat := []
  /-- SOFT set by the energy counters. -/
  soft : Bool := false
  /-- HARD set by the energy counters. -/
  hard : Bool := false
  /-- Jobs whose OVER is set. -/
  overJobs : List (BitVec 12) := []
  /-- SOFT held by the cairn controller for the module's draw (R432). -/
  holdSoft : Bool := false
  /-- HARD held by the cairn controller for the module's draw (R432). -/
  holdHard : Bool := false
  /-- HARD held by the cairn controller for heat (R433). -/
  holdHeat : Bool := false
  deriving DecidableEq, Repr

/-! ### Quays (R254, R264, R313, R317, R321, R392, R393) -/

/-- A walk in progress at a quay (R313): the walker's region, its joined misses, and whether it is held for MIG. -/
structure Walk where
  job : BitVec 12
  /-- VA[55:21]. -/
  region : Nat
  /-- The misses that wait for it: tile, TID of its request, and miss. -/
  joined : List (Nat × BitVec 20 × XMiss)
  /-- Held until the leaf entry's MIG is 0 (R317). -/
  held : Bool
  deriving DecidableEq, Repr

/-- A range entry of a name directory (R254). -/
structure RangeEnt where
  job : BitVec 12
  tens : BitVec 24
  quay : BitVec 5
  /-- log2 of the element size. -/
  esz : BitVec 3
  row0 : BitVec 20
  row1 : BitVec 20
  col0 : BitVec 20
  col1 : BitVec 20
  base : BitVec 57
  nbc : BitVec 20
  brows : BitVec 16
  bcols : BitVec 16
  deriving DecidableEq, Repr

/-- A fall-through read that is outstanding (R264). -/
structure FallRead where
  job : BitVec 12
  name : Word
  tag : BitVec 32
  summit : BitVec 17
  ent : RangeEnt
  deriving DecidableEq, Repr

/-- A Niesk frame as it was sent, waiting for acknowledgement (R393). -/
structure NieskTx where
  /-- Destination and source addresses, and EtherType. -/
  dst : BitVec 48
  src : BitVec 48
  etype : BitVec 16
  fseq : BitVec 32
  ack : BitVec 32
  vc : BitVec 2
  cred : BitVec 16
  flits : List (BitVec 256)
  /-- The packets whose last flit the frame carries, for the notices of a dead port. -/
  ends : List Packet
  deriving DecidableEq, Repr

/-- A sector of a quay's LLC slice: its bytes stand in memory as the home holds them; here, which of them the slice holds and which the
channel does not hold yet (R307, R318). -/
structure LlcSec where
  /-- The physical sector number. -/
  key : Nat
  have_ : BitVec 32
  dirty : BitVec 32
  deriving DecidableEq, Repr

/-- One quay with its Niesk port. -/
structure Quay where
  /-- Sectors of the LLC slice whose home is here, most recently used first. -/
  llc : List LlcSec := []
  /-- Copies in the LLC slice of sectors whose home is another module (R280). -/
  remote : List Sector := []
  /-- Retag log entries, oldest first, at most 4,096 (R321). -/
  rlog : List (BitVec 128) := []
  /-- RLHEAD. -/
  rlhead : BitVec 12 := 0
  /-- RLDROP. -/
  rldrop : BitVec 32 := 0
  /-- Walks in progress, at most 32. -/
  walks : List Walk := []
  /-- Misses that wait for a walker. -/
  walkQ : List (Nat × BitVec 20 × XMiss) := []
  /-- Range entries loaded at START (R254). -/
  ranges : List RangeEnt := []
  /-- Reads outstanding. -/
  falls : List FallRead := []
  /-- Packets already applied here (R266). -/
  seen : List (BitVec 19 × Nat × BitVec 32) := []
  /-- The quay's packet counter. -/
  oseq : BitVec 32 := 0
  /-- Copies that await acknowledgement. -/
  egress : List Staged := []
  /-- NPCFG.DEADTO. -/
  deadto : BitVec 16 := 1000
  /-- NPCFG.ETYPE. -/
  etype : BitVec 16 := 0x88B5
  /-- NPCFG.EN. -/
  en : Bool := false
  /-- NPSTAT.DEAD. -/
  npdead : Bool := false
  /-- NPSTAT.UP. -/
  npup : Bool := false
  /-- NPRETX. -/
  npretx : BitVec 48 := 0
  /-- NPTX. -/
  nptx : BitVec 48 := 0
  /-- NPRX. -/
  nprx : BitVec 48 := 0
  /-- NPPEER. -/
  nppeer : BitVec 48 := 0
  /-- The module that answers on the port. -/
  peer : BitVec 19 := 0
  /-- FSEQ of the next frame sent. -/
  npfseq : BitVec 32 := 0
  /-- FSEQ expected. -/
  npexpect : BitVec 32 := 0
  /-- Credit in flits that the peer has granted, by VC: 64 of VC0 (R393), and as many of the others at reset (log entry 33). -/
  npcred : Vector Nat 4 := Vector.replicate 4 64
  /-- Frames sent and not acknowledged. -/
  npreplay : List NieskTx := []
  /-- Flits taken from the peer and not yet credited to it, by VC. -/
  npowed : Vector Nat 4 := Vector.replicate 4 0
  /-- The port's arbitration of the packets that wait at it (R382). -/
  npout : OutPort := {}
  /-- Flits received of packets not yet whole, by VC. -/
  npflits : Vector (List (BitVec 256)) 4 := Vector.replicate 4 []
  deriving DecidableEq, Repr

/-! ### Home memory -/

/-- The five counters of a channel (R318). -/
structure ChanCnt where
  act : BitVec 48 := 0
  rconf : BitVec 48 := 0
  refst : BitVec 48 := 0
  brd : BitVec 48 := 0
  bwr : BitVec 48 := 0
  deriving DecidableEq, Repr

/-- A channel-placement range (R304). -/
structure ChanRange where
  w0 : Word := 0
  w1 : Word := 0
  deriving DecidableEq, Repr

/-! ### Notices in flight (R220, R221, R361) -/

/-- A binding whose arrival was counted and that awaits completion, or a notice on its way to it (R221). -/
structure Waiter where
  t : Nat
  b : Fin 5
  bind : Nat
  addr : Word
  win : Bool
  pa : Nat
  cap : BitVec 32
  deriving DecidableEq, Repr

/-- A reply notice (R361). -/
structure Reply where
  t : Nat
  b : BitVec 3
  deriving DecidableEq, Repr

/-! ### Jobs (R231, R329, R355, R367 to R370, R394, R396, R414) -/

/-- JTSTAT.STATE. -/
inductive JState | free | scrubbing | ready | running | gating | gated | ending
  deriving DecidableEq, Repr

/-- A template record and its placement, as the device read them (R74, R234). -/
structure Tmpl where
  entry : BitVec 32
  req : BitVec 16
  nslot : BitVec 8
  urg : Bool
  ecls : BitVec 2
  /-- Slot kinds, 4 bits each. -/
  kinds : Word
  /-- Format and shape tables, when the record names them. -/
  fmt : Option (Vector Word 16)
  shape : Option (Vector Word 4)
  /-- Subscription records: tensor, ranges, slot, mode. -/
  subs : List (BitVec 24 × BitVec 20 × BitVec 20 × BitVec 20 × BitVec 20 × BitVec 4 × BitVec 2)
  /-- LIST. -/
  list : List (BitVec 17)
  dbase : BitVec 19
  cap : BitVec 10
  dstr : BitVec 16
  deriving DecidableEq, Repr

/-- A population entry as the device read it (R329). -/
structure Pop where
  id : BitVec 24
  set : BitVec 6
  neur : BitVec 20
  per : BitVec 14
  entbase : BitVec 13
  list : List (BitVec 17)
  deriving DecidableEq, Repr

/-- An entry of a JTREM list (R394). -/
structure RemEnt where
  tens0 : BitVec 24
  tens1 : BitVec 24
  mod : BitVec 19
  rjob : BitVec 12
  deriving DecidableEq, Repr

/-- The unit that a command in progress acts on (R232, R367). -/
structure GateUnit where
  scope : BitVec 3
  tgt : BitVec 17
  /-- Consecutive sweeps that found the unit empty (R368). -/
  empty : Nat
  deriving DecidableEq, Repr

/-- A gate save block: what its laid-out bytes do not hold (R369). -/
structure SaveBlock where
  /-- The tile it was written for. -/
  tile : BitVec 17
  /-- The saved tile: berths, frames, bank, chains, subscriptions, streams, trap queue. -/
  saved : Tile
  deriving DecidableEq, Repr

/-- One record of the job table, with what the device keeps for the job. -/
structure Job where
  /-- JTSTAT. -/
  st : JState := .free
  err : BitVec 4 := 0
  scrub : Bool := false
  idle : Bool := false
  busy : Bool := false
  /-- JTCMD as last written. -/
  cmd : Word := 0
  /-- JTCTL. -/
  prio : BitVec 2 := 0
  sysjob : Bool := false
  cpol : Bool := false
  allot : Word := 0
  ptroot : Word := 0
  tmplA : Word := 0
  pmap : Word := 0
  ntmpl : BitVec 16 := 0
  tabs : Word := 0
  ndir : Word := 0
  root : Word := 0
  nroot : BitVec 16 := 0
  img : Word := 0
  ilen : BitVec 38 := 0
  fq : Word := 0
  sq : Word := 0
  gen : BitVec 8 := 0
  pop : Word := 0
  inc : BitVec 8 := 0
  save : Word := 0
  sup : BitVec 38 := 0
  move : BitVec 18 := 0
  rem : Word := 0
  /-- JTWP0 to JTWP7, words 0 and 1. -/
  wp0 : Vector Word 8 := Vector.replicate 8 0
  wp1 : Vector Word 8 := Vector.replicate 8 0
  red : Word := 0
  elim : BitVec 32 := 0
  /-- The unit of a GATE in progress. -/
  unit : Option GateUnit := none
  /-- The tables the device read at START or at a generation advance. -/
  tmpls : List Tmpl := []
  slist : List (BitVec 17) := []
  rems : List RemEnt := []
  /-- Save blocks by tile. -/
  blocks : List SaveBlock := []
  deriving DecidableEq, Repr

/-! ### Reductions (R396 to R398) -/

/-- A partial held by a reduction node. -/
structure Partial where
  name : Word
  tag : BitVec 32
  omod : BitVec 19
  ltn : BitVec 17
  payload : List (BitVec 256)
  deriving DecidableEq, Repr

/-- One reduction of a node. -/
structure Reduction where
  job : BitVec 12
  iten : BitVec 24
  oten : BitVec 24
  /-- 0 BF16, 1 FP32, 2 bit-plane. -/
  typ : BitVec 2
  planes : BitVec 4
  ctx : BitVec 12
  iter0 : BitVec 20
  iter1 : BitVec 20
  nper : BitVec 8
  /-- 0 for a slipway, 1 for a Niesk port. -/
  kind : BitVec 2
  port : BitVec 5
  ltn : BitVec 17
  dir : BitVec 2
  mlist : List (BitVec 19)
  stat : Nat
  row1 : BitVec 20
  col1 : BitVec 20
  /-- Partials held, in the order of arrival. -/
  parts : List Partial := []
  nres : BitVec 32 := 0
  extra : Bool := false
  badlen : Bool := false
  ovf : Bool := false
  flags : BitVec 5 := 0
  npart : Word := 0
  deriving DecidableEq, Repr

/-- One reduction node, as an origin and a destination of packets (R396). -/
structure RNode where
  /-- Its packet counter. -/
  oseq : BitVec 32 := 0
  /-- Copies that await acknowledgement. -/
  egress : List Staged := []
  /-- Packets already applied here (R266). -/
  seen : List (BitVec 19 × Nat × BitVec 32) := []
  deriving DecidableEq, Repr

/-! ### The cairn controller (R422 to R430) -/

/-- The cairn controller. -/
structure Cairn where
  /-- CRCMD. -/
  cmd : BitVec 8 := 0
  /-- CRARG. -/
  arg : BitVec 44 := 0
  /-- CRSTAT.RES. -/
  res : BitVec 8 := 0
  /-- CRSTAT.LOGFULL. -/
  logfull : Bool := false
  /-- CRSTAT.GRADE. -/
  grade : BitVec 2 := 0
  /-- Records that wait for the orphan queue, oldest first, at most 16 (R358). -/
  pending : List (List Word) := []
  /-- The retirement log, oldest first, at most 1,024 (R422). -/
  log : List (BitVec 17) := []
  /-- The stored token's bytes (R428). -/
  token : Option (List Byte) := none
  /-- The surplus tiles that the token accepted at boot enables (R425). -/
  surplus : List (BitVec 17) := []
  /-- The result of the stored token's check at boot. -/
  tokenRes : BitVec 8 := 0
  /-- Whether the token was accepted at boot. -/
  tokenOk : Bool := false
  /-- Boot step reached and cause of its failure. -/
  step : BitVec 8 := 0
  cause : BitVec 8 := 0
  /-- Boots since manufacture. -/
  boots : BitVec 32 := 0
  /-- Inlet and wafer temperatures, in tenths of a degree. -/
  inlet : BitVec 16 := 0
  wafer : BitVec 16 := 0
  /-- The last management-port reply. -/
  reply : List Byte := []
  deriving DecidableEq, Repr

/-- A walk of the critical path that is to make its next step (R411). -/
structure CpWalk where
  /-- The origin that the walk moves to. -/
  origin : Origin
  /-- The tile that holds a local binding's origin. -/
  tile : Nat
  step : Nat
  depth : Nat
  mark : BitVec 16
  job : BitVec 12
  deriving DecidableEq, Repr

/-- The reply to the last register access of a Filhus core (R11, R13). -/
inductive Resp
  | none
  | value (v : Word)
  | ok
  | error
  deriving DecidableEq, Repr

/-! ### The whole module -/

/-- The state of the module. -/
structure State where
  /-- Which agent moves next, chosen by the environment; empty when the core `cur` is to issue. -/
  schedule : List Instr
  /-- The tile whose core issues when nothing is scheduled, and the berth it issued last. -/
  cur : Nat
  curB : Fin 5
  /-- The immediate extension of the slot to be issued. -/
  imx : Option (BitVec 26)
  /-- The counter that free values are taken by. -/
  fresh : Nat
  /-- The counter that names bindings and macros. -/
  uid : Nat
  /-- A physical address that no memory holds and that a device unit was directed to (R300). -/
  stuck : Option Nat
  /-- Boot has released the Filhus cores (R426). -/
  booted : Bool
  tiles : SMap Tile
  routers : SMap Router
  spurs : SMap Spur
  fields : SMap Field
  quays : SMap Quay
  /-- HBM4E and LPDDR bytes, by the channel that holds them and their place there (R304); an unlisted byte reads 0. -/
  mem : SMap Byte
  /-- Locks of HBM4E granules that are not 0, by granule number (R320). -/
  locks : SMap (BitVec 4)
  /-- Poisoned bytes (R364). -/
  poison : SMap Bool
  /-- Divergence bits of replicated sectors that are set, by the sector number in replica 0, with the job and the page in replica 0 (R146). -/
  diverged : SMap (BitVec 12 × Nat)
  /-- Channel-placement ranges 0 to 63. -/
  ranges : SMap ChanRange
  /-- Channel counters by channel. -/
  chans : SMap ChanCnt
  /-- Open rows, by channel × 128 + pseudo-channel × 64 + bank. -/
  rows : SMap (Option Nat)
  /-- Packets in flight. -/
  packets : List Packet
  /-- ARRIVEs in flight. -/
  arrivals : List Arrival
  /-- Bindings whose arrival was counted and whose barrier is not complete. -/
  waiters : List Waiter
  /-- Completion notices in flight. -/
  notices : List Waiter
  /-- Reply notices in flight. -/
  replies : List Reply
  /-- Walks of the critical path in progress. -/
  cpWalks : List CpWalk
  jobs : SMap Job
  reductions : List Reduction
  /-- Reduction nodes, by router × 8 + port. -/
  nodes : SMap RNode
  /-- JTSEL. -/
  jtsel : BitVec 12
  /-- PER, and the PER that the next tick takes. -/
  per : BitVec 32
  perNext : BitVec 32
  /-- TKCNT. -/
  tkcnt : BitVec 32
  /-- SHOOT. -/
  shoot : BitVec 15
  shootBusy : Bool
  /-- SHOOTVA. -/
  shootva : BitVec 56
  /-- CSNAP. -/
  csnap : BitVec 44
  csnapBusy : Bool
  /-- ORPHQ. -/
  orphq : Word
  /-- SETHR. -/
  sethr : BitVec 16
  /-- RNOTE. -/
  rnote : BitVec 32
  /-- GENADV. -/
  gen : BitVec 8
  genBusy : Bool
  /-- Tiles that have not refreshed their tables since the advance (R272). -/
  refresh : List Nat
  /-- RETIRE. -/
  retire : BitVec 17
  retireBusy : Bool
  /-- ORPHLOST. -/
  orphlost : BitVec 48
  /-- MODID. -/
  modid : BitVec 19
  /-- NPSEL entries. -/
  npsel : Vector (BitVec 5) 256
  cairn : Cairn
  /-- The reply to the last register access of a Filhus core. -/
  resp : Resp
  /-- The replies to inbound PCIe transactions: bytes read, or `none` for Unsupported Request. -/
  pcie : List (Option (List Byte))
  deriving DecidableEq, Repr

/-- Why the machine stops with a fault. -/
inductive Fault
  /-- A device unit (a table reader, a walker, a record writer) is directed to a physical address that no memory holds
  (R300); raised by the steps that read tables or write records. Safe: nothing is claimed of what follows. -/
  | unpopulated (pa : Nat)
  deriving DecidableEq, Repr

/-- Why an instruction term has no meaning. -/
inductive Refusal
  /-- An instruction not modelled yet; raised by its arm of `exec`. Safe. -/
  | notModelled (mnemonic : String)
  deriving DecidableEq, Repr

/-- The module with no power applied: every register at its reset value, no tile powered, no job (R426, R427, R231).
Registers for which the spec gives no value hold the value that log entry 2 names; GRADE reads the fuses (R423, R427). -/
def State.reset : State where
  schedule := []
  cur := 0
  curB := 0
  imx := none
  fresh := 0
  uid := 1
  stuck := none
  booted := false
  tiles := []
  routers := []
  spurs := []
  fields := []
  quays := []
  mem := []
  locks := []
  poison := []
  diverged := []
  ranges := []
  chans := []
  rows := []
  packets := []
  arrivals := []
  waiters := []
  notices := []
  replies := []
  cpWalks := []
  jobs := []
  reductions := []
  nodes := []
  jtsel := 0
  per := 1400
  perNext := 1400
  tkcnt := 0
  shoot := 0
  shootBusy := false
  shootva := 0
  csnap := 0
  csnapBusy := false
  orphq := 0
  sethr := 0
  rnote := 0
  gen := 0
  genBusy := false
  refresh := []
  retire := 0
  retireBusy := false
  orphlost := 0
  modid := 0
  npsel := Vector.ofFn fun i => BitVec.ofNat 5 (i.val % 32)
  cairn := { grade := Config.gradeFuses }
  resp := .none
  pcie := []

end Sys2Proof.Machine
end

