-- ==== Sys2Proof/Machine/Sparse.lean ====
section
/-!
DEFINITION. Machine/Sparse.lean: keyed lists with rising keys, bytes and little-endian words (R8).
-/
namespace Sys2Proof.Machine

/-- The value at a key, `d` where the key is not listed. -/
def SMap.get {α : Type} (d : α) : SMap α → Nat → α
  | [], _ => d
  | (k', v) :: r, k => if k = k' then v else SMap.get d r k

/-- The value at a key, if it is listed. -/
def SMap.find {α : Type} : SMap α → Nat → Option α
  | [], _ => none
  | (k', v) :: r, k => if k = k' then some v else SMap.find r k

/-- The list with a value at a key. -/
def SMap.put {α : Type} : SMap α → Nat → α → SMap α
  | [], k, v => [(k, v)]
  | (k', v') :: r, k, v =>
    if k < k' then (k, v) :: (k', v') :: r
    else if k = k' then (k, v) :: r
    else (k', v') :: SMap.put r k v

/-- The list without a key. -/
def SMap.erase {α : Type} : SMap α → Nat → SMap α
  | [], _ => []
  | (k', v') :: r, k => if k = k' then SMap.erase r k else (k', v') :: SMap.erase r k

/-- The list with a value at a key, where `d` is the value of every unlisted key: no entry holds `d`. -/
def SMap.set {α : Type} [DecidableEq α] (d : α) (m : SMap α) (k : Nat) (v : α) : SMap α :=
  if v = d then m.erase k else m.put k v

/-- Whether the keys rise strictly from above `lo`. -/
def SMap.risesFrom {α : Type} : Nat → SMap α → Bool
  | _, [] => true
  | lo, (k, _) :: r => decide (lo ≤ k) && SMap.risesFrom (k + 1) r

/-- Whether no entry holds the default. -/
def SMap.noDefault {α : Type} [DecidableEq α] (d : α) : SMap α → Bool
  | [] => true
  | (_, v) :: r => decide (v ≠ d) && SMap.noDefault d r

/-- The canonical form: keys strictly rising, no entry equal to the default. -/
def SMap.wf {α : Type} [DecidableEq α] (d : α) (m : SMap α) : Bool := m.risesFrom 0 && m.noDefault d

/-- The canonical form of a byte memory whose unlisted bytes read 0 (log entry 1). -/
def Memory.wf (m : SMap Byte) : Bool := SMap.wf 0 m

/-! ### Bytes -/

/-- `n` bytes read from address `a` up, lowest first. -/
def readN (f : Nat → Byte) : Nat → Nat → List Byte
  | _, 0 => []
  | a, n + 1 => f a :: readN f (a + 1) n

/-- The little-endian value of a byte list (R8). -/
def leNat : List Byte → Nat
  | [] => 0
  | b :: r => b.toNat + 256 * leNat r

/-- The low `n` bytes of a number, lowest first (R8). -/
def leBytes : Nat → Nat → List Byte
  | 0, _ => []
  | n + 1, v => BitVec.ofNat 8 v :: leBytes n (v / 256)

/-- A memory with a list of bytes written from address `a` up. -/
def SMap.writeBytes (m : SMap Byte) : Nat → List Byte → SMap Byte
  | _, [] => m
  | a, b :: r => SMap.writeBytes (SMap.set 0 m a b) (a + 1) r

/-- The bytes of a memory from address `a` up. -/
def SMap.readBytes (m : SMap Byte) (a n : Nat) : List Byte := readN (SMap.get 0 m) a n

/-- A 64-bit word of a memory. -/
def SMap.word (m : SMap Byte) (a : Nat) : Word := BitVec.ofNat 64 (leNat (m.readBytes a 8))

/-- Bits [hi:lo] of a number. -/
def bits (x hi lo : Nat) : Nat := x / 2 ^ lo % 2 ^ (hi + 1 - lo)

/-- Bits [hi:lo] of a word. -/
def wbits (x : Word) (hi lo : Nat) : Nat := bits x.toNat hi lo

/-- One bit of a word. -/
def wbit (x : Word) (i : Nat) : Bool := x.getLsbD i

/-- A Bool as a number. -/
def b2n (b : Bool) : Nat := if b then 1 else 0

/-- A counter increment that saturates at the top of its width. -/
def satInc {w : Nat} (x : BitVec w) (n : Nat) : BitVec w := BitVec.ofNat w (min (x.toNat + n) (2 ^ w - 1))

end Sys2Proof.Machine
end

