-- ==== Sys2Proof/Machine/Numbers.lean ====
section
/-!
DEFINITION. Machine/Numbers.lean: the floating formats (R80), exact values of operands and exact arithmetic on them,
integer readings (R90), and bit-plane elements (R91 to R94).
-/
namespace Sys2Proof.Machine

/-! ### Formats (R80) -/

/-- A floating format: its exponent and fraction widths. -/
structure FloatFmt where
  ebits : Nat
  mbits : Nat
  deriving DecidableEq, Repr

/-- FP64. -/
def fp64 : FloatFmt := ⟨11, 52⟩
/-- FP32. -/
def fp32 : FloatFmt := ⟨8, 23⟩
/-- FP16. -/
def fp16 : FloatFmt := ⟨5, 10⟩
/-- BF16. -/
def bf16 : FloatFmt := ⟨8, 7⟩

/-- The exponent bias. -/
def FloatFmt.bias (f : FloatFmt) : Nat := 2 ^ (f.ebits - 1) - 1
/-- The exponent of the smallest normal value. -/
def FloatFmt.emin (f : FloatFmt) : Int := 1 - (f.bias : Int)
/-- The number of bits. -/
def FloatFmt.width (f : FloatFmt) : Nat := 1 + f.ebits + f.mbits
/-- The pattern of an infinity. -/
def FloatFmt.infBits (f : FloatFmt) (neg : Bool) : Nat :=
  b2n neg * 2 ^ (f.ebits + f.mbits) + (2 ^ f.ebits - 1) * 2 ^ f.mbits
/-- The canonical NaN. -/
def FloatFmt.nanBits (f : FloatFmt) : Nat := (2 ^ f.ebits - 1) * 2 ^ f.mbits + 2 ^ (f.mbits - 1)
/-- The pattern of a zero. -/
def FloatFmt.zeroBits (f : FloatFmt) (neg : Bool) : Nat := b2n neg * 2 ^ (f.ebits + f.mbits)

/-- The exact value of a pattern (R80, R84); under flush-to-zero a subnormal reads as a zero of its sign (R83). -/
def FloatFmt.decode (f : FloatFmt) (ftz : Bool) (x : Nat) : FVal :=
  let neg := x / 2 ^ (f.ebits + f.mbits) % 2 == 1
  let e := x / 2 ^ f.mbits % 2 ^ f.ebits
  let m := x % 2 ^ f.mbits
  if e = 2 ^ f.ebits - 1 then
    if m = 0 then .inf neg else .nan (decide (m < 2 ^ (f.mbits - 1)))
  else if e = 0 then .fin neg (if ftz then 0 else m) (f.emin - f.mbits)
  else .fin neg (m + 2 ^ f.mbits) ((e : Int) - f.bias - f.mbits)

/-! ### Exact values -/

/-- Whether a value is a NaN. -/
def FVal.isNan : FVal → Bool
  | .nan _ => true
  | _ => false
/-- Whether a value is a signalling NaN. -/
def FVal.isSnan : FVal → Bool
  | .nan q => q
  | _ => false
/-- Whether a value is an infinity. -/
def FVal.isInf : FVal → Bool
  | .inf _ => true
  | _ => false
/-- Whether a value is a zero. -/
def FVal.isZero : FVal → Bool
  | .fin _ 0 _ => true
  | _ => false
/-- The sign. -/
def FVal.neg : FVal → Bool
  | .nan _ => false
  | .inf n => n
  | .fin n _ _ => n
/-- The value with its sign inverted. -/
def FVal.negate : FVal → FVal
  | .nan q => .nan q
  | .inf n => .inf !n
  | .fin n m e => .fin (!n) m e

/-- A signed number from a sign and a magnitude. -/
def signed (neg : Bool) (m : Nat) : Int := if neg then -(m : Int) else m

/-- m × 2^k, for a k that is not negative. -/
def shiftUp (m : Int) (k : Int) : Int := m * 2 ^ k.toNat

/-- The exact sum of two finite values: a signed mantissa and an exponent. -/
def sumExact (n1 : Bool) (m1 : Nat) (e1 : Int) (n2 : Bool) (m2 : Nat) (e2 : Int) : Int × Int :=
  let e := min e1 e2
  (shiftUp (signed n1 m1) (e1 - e) + shiftUp (signed n2 m2) (e2 - e), e)

/-- The exact sum, with whether the operation is invalid. An exact zero sum is +0 unless both operands are −0 (R111). -/
def FVal.add (a b : FVal) : FVal × Bool :=
  match a, b with
  | .nan p, .nan q => (.nan false, p || q)
  | .nan p, _ => (.nan false, p)
  | _, .nan q => (.nan false, q)
  | .inf m, .inf n => if m == n then (.inf m, false) else (.nan false, true)
  | .inf m, _ => (.inf m, false)
  | _, .inf n => (.inf n, false)
  | .fin n1 m1 e1, .fin n2 m2 e2 =>
    let (m, e) := sumExact n1 m1 e1 n2 m2 e2
    if m = 0 then (.fin (n1 && n2 && m1 == 0 && m2 == 0) 0 0, false) else (.fin (decide (m < 0)) m.natAbs e, false)

/-- The exact product, with whether the operation is invalid. -/
def FVal.mul (a b : FVal) : FVal × Bool :=
  match a, b with
  | .nan p, .nan q => (.nan false, p || q)
  | .nan p, _ => (.nan false, p)
  | _, .nan q => (.nan false, q)
  | .inf m, .inf n => (.inf (m != n), false)
  | .inf m, .fin n k _ => if k = 0 then (.nan false, true) else (.inf (m != n), false)
  | .fin n k _, .inf m => if k = 0 then (.nan false, true) else (.inf (m != n), false)
  | .fin n1 m1 e1, .fin n2 m2 e2 => (.fin (n1 != n2) (m1 * m2) (e1 + e2), false)

/-- The order of two values that are not NaNs: −1, 0 or 1; a zero's sign does not count. -/
def FVal.cmp (a b : FVal) : Int :=
  match a, b with
  | .inf m, .inf n => if m == n then 0 else if m then -1 else 1
  | .inf m, _ => if m then -1 else 1
  | _, .inf n => if n then 1 else -1
  | .fin n1 m1 e1, .fin n2 m2 e2 =>
    let e := min e1 e2
    let x := shiftUp (signed n1 m1) (e1 - e)
    let y := shiftUp (signed n2 m2) (e2 - e)
    if x < y then -1 else if x = y then 0 else 1
  | _, _ => 0

/-- The order in which −0 lies below +0 (R85). -/
def FVal.below (a b : FVal) : Bool :=
  let c := a.cmp b
  c == -1 || (c == 0 && a.isZero && b.isZero && a.neg && !b.neg)

/-- The integer square root, found from bit `k` down. -/
def isqrtFrom (n : Nat) : Nat → Nat → Nat
  | 0, r => r
  | k + 1, r => isqrtFrom n k (if (r + 2 ^ k) * (r + 2 ^ k) ≤ n then r + 2 ^ k else r)

/-- The integer square root. -/
def isqrt (n : Nat) : Nat := isqrtFrom n (n.log2 / 2 + 1) 0

/-! ### Integers (R90) -/

/-- A pattern of `w` bits read as signed. -/
def toSigned (w x : Nat) : Int := if x % 2 ^ w < 2 ^ (w - 1) then ((x % 2 ^ w : Nat) : Int) else ((x % 2 ^ w : Nat) : Int) - 2 ^ w
/-- A pattern of `w` bits read as signed or unsigned. -/
def laneInt (w : Nat) (uns : Bool) (x : Nat) : Int := if uns then ((x % 2 ^ w : Nat) : Int) else toSigned w x
/-- An integer modulo 2^w. -/
def wrapInt (w : Nat) (v : Int) : Nat := (v % 2 ^ w).toNat
/-- The least value of a type. -/
def intMin (w : Nat) (uns : Bool) : Int := if uns then 0 else -(2 ^ (w - 1))
/-- The largest value of a type. -/
def intMax (w : Nat) (uns : Bool) : Int := if uns then 2 ^ w - 1 else 2 ^ (w - 1) - 1
/-- An integer clamped to the range of a type (R90). -/
def clampInt (w : Nat) (uns : Bool) (v : Int) : Int := max (intMin w uns) (min v (intMax w uns))
/-- An integer result as a pattern: clamped when `sat`, wrapped otherwise. -/
def intResult (w : Nat) (uns sat : Bool) (v : Int) : Nat := wrapInt w (if sat then clampInt w uns v else v)

/-! ### Bit-plane elements (R91 to R94) -/

/-- NMK of a block header. -/
def hdrNmk (h : Nat) : Bool := h / 2 ^ 14 % 2 == 1
/-- SGN. -/
def hdrSgn (h : Nat) : Bool := h / 2 ^ 13 % 2 == 1
/-- ZB. -/
def hdrZb (h : Nat) : Bool := h / 2 ^ 12 % 2 == 1
/-- NPL. -/
def hdrNpl (h : Nat) : Nat := h / 2 ^ 8 % 16
/-- EXP. -/
def hdrExp (h : Nat) : Nat := h % 256

/-- Whether a header is a format fault: a reserved bit, a plane count outside 2 to 8, the packed limit, or a NMK that
differs from what its operand needs (R91 to R93, R95). -/
def hdrFault (h : Nat) (packed sparse : Bool) : Bool :=
  h / 2 ^ 15 % 2 == 1 ||
    (!hdrZb h && (decide (hdrNpl h < 2) || decide (8 < hdrNpl h) || (packed && hdrNpl h == 8) || hdrNmk h != sparse))

/-- The magnitude m that a read of `j` planes gives, from the bits of the planes (R94). -/
def planeMag (bit : Nat → Bool) (j : Nat) (rnd : Bool) : Nat :=
  let m := (List.range (j - 1)).foldl (fun m i => 2 * m + b2n (bit (i + 1))) 0
  if rnd && decide (j ≤ 7) && bit j then min (m + 1) (2 ^ (j - 1) - 1) else m

/-- The value of an element of a block, from its header and its bit in each plane (R94). -/
def planeValue (h : Nat) (bit : Nat → Bool) (j : Nat) (rnd : Bool) : FVal :=
  if hdrZb h then .fin false 0 0
  else
    let b (p : Nat) : Bool := decide (p < hdrNpl h) && (p != 0 || hdrSgn h) && bit p
    let m := planeMag b j rnd
    if m = 0 then .fin false 0 0 else .fin (b 0) m ((hdrExp h : Int) - 127 - ((j : Int) - 1))

/-- N of a format's NSP (R97): kept values in each group of 12; 0 when dense. -/
def nspN (c : Nat) : Nat :=
  match c with
  | 1 => 2
  | 2 => 3
  | 3 => 4
  | 4 => 6
  | _ => 0

/-- The number of one bits among the low `n` bits. -/
def popcount (n x : Nat) : Nat := (List.range n).foldl (fun a i => a + x / 2 ^ i % 2) 0

end Sys2Proof.Machine
end

