-- ==== Sys2Proof/Machine/Flags.lean ====
section
/-!
DEFINITION. Machine/Flags.lean: RoundNE and every flag that an operation raises (R82 to R87, R89, R111, R112, R154,
R155, R164). A result is a pattern with the flags raised, in FFLAGS bit order.
-/
namespace Sys2Proof.Machine

/-- Flags in FFLAGS bit order (R86). -/
abbrev FFlags := BitVec 6

/-- Bit 0, invalid. -/
def fInvalid : FFlags := 1
/-- Bit 1, divide-by-zero. -/
def fDz : FFlags := 2
/-- Bit 2, overflow, with inexact. -/
def fOverflow : FFlags := 20
/-- Bit 3, underflow, with inexact. -/
def fUnderflow : FFlags := 24
/-- Bit 4, inexact. -/
def fInexact : FFlags := 16
/-- Bit 5, integer DZ. -/
def fIntDz : FFlags := 32
/-- Invalid when a condition holds. -/
def fInv (b : Bool) : FFlags := if b then fInvalid else 0

/-- A quotient by 2^k rounded to nearest, ties to even, a remainder below it being nonzero when `sticky`; and whether it
is inexact. -/
def roundShift (m k : Nat) (sticky : Bool) : Nat × Bool :=
  let q := m / 2 ^ k
  let r := m % 2 ^ k
  let half := if k = 0 then 0 else 2 ^ (k - 1)
  let up := k != 0 && (decide (half < r) || (r == half && (sticky || q % 2 == 1)))
  (if up then q + 1 else q, r != 0 || sticky)

/-- RoundNE of (−1)^neg × (m + ε) × 2^e, with 0 < ε < 1 when `sticky` and ε = 0 otherwise: the pattern and its flags
(R45, R82, R83, R86). With `sticky`, m has more bits than the format. -/
def roundNE (f : FloatFmt) (ftz neg : Bool) (m : Nat) (e : Int) (sticky : Bool) : Nat × FFlags :=
  if m = 0 && !sticky then (f.zeroBits neg, 0)
  else
    let p : Nat := f.mbits + 1
    let top : Int := e + m.log2
    let q0 : Int := top - f.mbits
    let qmin : Int := f.emin - f.mbits
    let cut (q : Int) : Nat × Bool :=
      if q ≤ e then (m * 2 ^ (e - q).toNat, sticky) else roundShift m (q - e).toNat sticky
    let (u, _) := cut q0
    let tiny := decide (top < f.emin) && !(decide (top + 1 = f.emin) && u == 2 ^ p)
    let q := max q0 qmin
    let (r, inx) := cut q
    let (r, q) := if r = 2 ^ p then (2 ^ f.mbits, q + 1) else (r, q)
    if ftz && tiny then (f.zeroBits neg, fUnderflow)
    else if r < 2 ^ f.mbits then
      (f.zeroBits neg + r, if inx then fUnderflow else 0)
    else
      let be : Int := q + f.mbits + f.bias
      if (2 ^ f.ebits : Int) - 1 ≤ be then (f.infBits neg, fOverflow)
      else
        (f.zeroBits neg + be.toNat * 2 ^ f.mbits + (r - 2 ^ f.mbits),
         if inx then (if tiny then fUnderflow else fInexact) else 0)

/-- A value rounded to a format; a NaN is canonical (R84). -/
def roundVal (f : FloatFmt) (ftz : Bool) (v : FVal) : Nat × FFlags :=
  match v with
  | .nan _ => (f.nanBits, 0)
  | .inf n => (f.infBits n, 0)
  | .fin n m e => roundNE f ftz n m e false

/-- A result with its own invalid condition. -/
def roundRes (f : FloatFmt) (ftz : Bool) (r : FVal × Bool) : Nat × FFlags :=
  let (x, fl) := roundVal f ftz r.1
  (x, fl ||| fInv r.2)

/-! ### Arithmetic (R111, R154) -/

/-- a + b. -/
def faddOp (f : FloatFmt) (ftz : Bool) (a b : Nat) : Nat × FFlags :=
  roundRes f ftz ((f.decode ftz a).add (f.decode ftz b))
/-- a − b. -/
def fsubOp (f : FloatFmt) (ftz : Bool) (a b : Nat) : Nat × FFlags :=
  roundRes f ftz ((f.decode ftz a).add (f.decode ftz b).negate)
/-- a × b. -/
def fmulOp (f : FloatFmt) (ftz : Bool) (a b : Nat) : Nat × FFlags :=
  roundRes f ftz ((f.decode ftz a).mul (f.decode ftz b))

/-- a × b + d on exact values, formed exactly; 0 × ∞ is invalid even when d is a quiet NaN (R111). -/
def FVal.fma (a b d : FVal) : FVal × Bool :=
  let (p, i) := a.mul b
  let (r, j) := p.add d
  (r, i || j || d.isSnan)

/-- a × b + d. -/
def ffmaOp (f : FloatFmt) (ftz : Bool) (a b d : Nat) : Nat × FFlags :=
  roundRes f ftz ((f.decode ftz a).fma (f.decode ftz b) (f.decode ftz d))

/-- The quotient of two magnitudes, with enough bits for a format: mantissa, exponent and whether it is inexact. -/
def divExact (f : FloatFmt) (m1 : Nat) (e1 : Int) (m2 : Nat) (e2 : Int) : Nat × Int × Bool :=
  let k := f.mbits + 4 + m2.log2
  let n := m1 * 2 ^ k
  (n / m2, e1 - e2 - k, n % m2 != 0)

/-- a / b (R86, R111). -/
def fdivOp (f : FloatFmt) (ftz : Bool) (a b : Nat) : Nat × FFlags :=
  match f.decode ftz a, f.decode ftz b with
  | .nan p, .nan q => (f.nanBits, fInv (p || q))
  | .nan p, _ => (f.nanBits, fInv p)
  | _, .nan q => (f.nanBits, fInv q)
  | .inf _, .inf _ => (f.nanBits, fInvalid)
  | .inf m, .fin n _ _ => (f.infBits (m != n), 0)
  | .fin n _ _, .inf m => (f.zeroBits (m != n), 0)
  | .fin n1 m1 e1, .fin n2 m2 e2 =>
    if m2 = 0 then
      if m1 = 0 then (f.nanBits, fInvalid) else (f.infBits (n1 != n2), fDz)
    else if m1 = 0 then (f.zeroBits (n1 != n2), 0)
    else
      let (m, e, st) := divExact f m1 e1 m2 e2
      roundNE f ftz (n1 != n2) m e st

/-- The square root of m × 2^e, with enough bits for a format. -/
def sqrtExact (f : FloatFmt) (m : Nat) (e : Int) : Nat × Int × Bool :=
  let k := 2 * (f.mbits + 3)
  let odd := e % 2 != 0
  let n := m * 2 ^ (if odd then k + 1 else k)
  let r := isqrt n
  (r, (e - (if odd then 1 else 0) - k) / 2, r * r != n)

/-- √a (R111, R155). -/
def fsqrtOp (f : FloatFmt) (ftz : Bool) (a : Nat) : Nat × FFlags :=
  match f.decode ftz a with
  | .nan q => (f.nanBits, fInv q)
  | .inf n => if n then (f.nanBits, fInvalid) else (f.infBits false, 0)
  | .fin n m e =>
    if m = 0 then (f.zeroBits n, 0)
    else if n then (f.nanBits, fInvalid)
    else
      let (r, q, st) := sqrtExact f m e
      roundNE f ftz false r q st

/-- 1 / a (R155). -/
def frcpOp (f : FloatFmt) (ftz : Bool) (a : Nat) : Nat × FFlags :=
  match f.decode ftz a with
  | .nan q => (f.nanBits, fInv q)
  | .inf n => (f.zeroBits n, 0)
  | .fin n m e =>
    if m = 0 then (f.infBits n, fDz)
    else
      let (r, q, st) := divExact f 1 0 m e
      roundNE f ftz n r q st

/-- 1 / √a (R155). -/
def frsqOp (f : FloatFmt) (ftz : Bool) (a : Nat) : Nat × FFlags :=
  match f.decode ftz a with
  | .nan q => (f.nanBits, fInv q)
  | .inf n => if n then (f.nanBits, fInvalid) else (f.zeroBits false, 0)
  | .fin n m e =>
    if m = 0 then (f.infBits n, fDz)
    else if n then (f.nanBits, fInvalid)
    else
      -- 1/√(m 2^e) = √(2^(2j) / m) × 2^(−e/2 − j), the quotient taken to its integer part
      let odd := e % 2 != 0
      let m' := if odd then 2 * m else m
      let e' : Int := if odd then e - 1 else e
      let j := f.mbits + 4 + m'.log2
      let n2 := 2 ^ (2 * j)
      let r := isqrt (n2 / m')
      roundNE f ftz false r (-(e' / 2) - j) (r * r * m' != n2)

/-! ### Minimum, maximum, comparison (R85) -/

/-- The smaller or the larger; one NaN gives the other operand, two give the canonical NaN. -/
def fminmaxOp (f : FloatFmt) (ftz wantMax : Bool) (a b : Nat) : Nat × FFlags :=
  let x := f.decode ftz a
  let y := f.decode ftz b
  let inv := fInv (x.isSnan || y.isSnan)
  -- a delivered operand is read under flush-to-zero
  let give (v : FVal) (bits : Nat) : Nat := if v.isZero then f.zeroBits v.neg else bits % 2 ^ f.width
  if x.isNan && y.isNan then (f.nanBits, inv)
  else if x.isNan then (give y b, inv)
  else if y.isNan then (give x a, inv)
  else
    let takeB := if wantMax then x.below y else y.below x
    (if takeB then give y b else give x a, inv)

/-- A comparison: whether it holds, and its flags. -/
def fcmpOp (f : FloatFmt) (ftz : Bool) (c : FCond) (a b : Nat) : Bool × FFlags :=
  let x := f.decode ftz a
  let y := f.decode ftz b
  let un := x.isNan || y.isNan
  let sn := x.isSnan || y.isSnan
  match c with
  | .eq => (!un && x.cmp y == 0, fInv sn)
  | .lt => (!un && x.cmp y == -1, fInv un)
  | .le => (!un && x.cmp y != 1, fInv un)
  | .un => (un, fInv sn)

/-! ### Conversions (R82, R112, R165) -/

/-- Floating to floating. -/
def fcvtOp (src dst : FloatFmt) (ftz : Bool) (a : Nat) : Nat × FFlags :=
  let v := src.decode ftz a
  roundRes dst ftz (v, v.isSnan)

/-- Floating to an integer of `w` bits. -/
def fToInt (f : FloatFmt) (ftz : Bool) (w : Nat) (uns : Bool) (a : Nat) : Nat × FFlags :=
  match f.decode ftz a with
  | .nan _ => (0, fInvalid)
  | .inf n => (wrapInt w (if n then intMin w uns else intMax w uns), fInvalid)
  | .fin n m e =>
    let (r, inx) := if 0 ≤ e then (m * 2 ^ e.toNat, false) else roundShift m (-e).toNat false
    let v := signed n r
    if v < intMin w uns then (wrapInt w (intMin w uns), fInvalid)
    else if intMax w uns < v then (wrapInt w (intMax w uns), fInvalid)
    else (wrapInt w v, if inx then fInexact else 0)

/-- An integer to floating. -/
def intToF (f : FloatFmt) (ftz : Bool) (v : Int) : Nat × FFlags := roundNE f ftz (decide (v < 0)) v.natAbs 0 false

/-! ### Integer division (R89) -/

/-- The signed quotient of `w`-bit patterns, truncated toward zero. -/
def sdivOp (w a b : Nat) : Nat × FFlags :=
  if b % 2 ^ w = 0 then (2 ^ w - 1, fIntDz) else (wrapInt w ((toSigned w a).tdiv (toSigned w b)), 0)
/-- The unsigned quotient. -/
def udivOp (w a b : Nat) : Nat × FFlags :=
  if b % 2 ^ w = 0 then (2 ^ w - 1, fIntDz) else (a % 2 ^ w / (b % 2 ^ w), 0)
/-- The signed remainder. -/
def sremOp (w a b : Nat) : Nat × FFlags :=
  if b % 2 ^ w = 0 then (a % 2 ^ w, fIntDz) else (wrapInt w ((toSigned w a).tmod (toSigned w b)), 0)
/-- The unsigned remainder. -/
def uremOp (w a b : Nat) : Nat × FFlags :=
  if b % 2 ^ w = 0 then (a % 2 ^ w, fIntDz) else (a % 2 ^ w % (b % 2 ^ w), 0)

/-! ### Powers and logarithms of two (R155; log entry 21) -/

/-- ln 2 × 2^p, rounded down term by term: the sum of 1 / (k 2^k). -/
def ln2Fix (p : Nat) : Nat := (List.range p).foldl (fun a i => a + 2 ^ p / ((i + 1) * 2 ^ (i + 1))) 0

/-- exp(x / 2^p) × 2^p for 0 ≤ x < 2^p, by its series; each term is rounded down. -/
def expFix (p x : Nat) : Nat :=
  ((List.range p).foldl (fun (a : Nat × Nat) i => (a.1 + a.2, a.2 * x / 2 ^ p / (i + 1))) (0, 2 ^ p)).1

/-- ln(x / 2^p) × 2^p for 2^p ≤ x < 2^(p+1): twice the inverse hyperbolic tangent of (x − 1) / (x + 1). -/
def lnFix (p x : Nat) : Nat :=
  let y := (x - 2 ^ p) * 2 ^ p / (x + 2 ^ p)
  let y2 := y * y / 2 ^ p
  2 * ((List.range p).foldl (fun (a : Nat × Nat) i => (a.1 + a.2 / (2 * i + 1), a.2 * y2 / 2 ^ p)) (0, y)).1

/-- A number known to lie strictly between lo × 2^e and hi × 2^e, rounded; none when the two ends round apart. -/
def roundBetween (f : FloatFmt) (ftz neg : Bool) (lo hi : Nat) (e : Int) : Option (Nat × FFlags) :=
  let a := roundNE f ftz neg lo e true
  let b := roundNE f ftz neg (hi - 1) e true
  if a = b then some a else none

/-- The first answer that a list of precisions gives, from the least; the last one's lower end otherwise. -/
def refine (g : Nat → Option (Nat × FFlags)) (dflt : Nat × FFlags) : List Nat → Nat × FFlags
  | [] => dflt
  | p :: ps => match g p with
    | some r => r
    | none => refine g dflt ps

/-- The working precisions. -/
def precisions : List Nat := [192, 384, 1536]

/-- 2^a at a working precision, for a = v × 2^(−k), a number that is not an integer. -/
def expAt (f : FloatFmt) (ftz : Bool) (v : Int) (k p : Nat) : Option (Nat × FFlags) :=
  let i := v / 2 ^ k
  let fr := (v % 2 ^ k).toNat
  -- the fraction times ln 2, as a fixed-point number with p bits
  let x := fr * ln2Fix (p + 8) / 2 ^ (k + 8)
  let r := expFix p x
  -- every term is rounded down, by less than one unit each
  roundBetween f ftz false r (r + 8 * p) (i - p)

/-- 2^a (R155). -/
def fexpOp (f : FloatFmt) (ftz : Bool) (a : Nat) : Nat × FFlags :=
  match f.decode ftz a with
  | .nan q => (f.nanBits, fInv q)
  | .inf n => if n then (f.zeroBits false, 0) else (f.infBits false, 0)
  | .fin n m e =>
    let big : Int := 2 * f.bias + 2 * f.mbits + 8
    if m = 0 then roundNE f ftz false 1 0 false
    else if 0 ≤ e || m % 2 ^ (-e).toNat = 0 then
      let v := if 0 ≤ e then signed n (m * 2 ^ (min e.toNat 64)) else signed n (m / 2 ^ (-e).toNat)
      roundNE f ftz false 1 (max (-big) (min v big)) false
    else if (m.log2 : Int) + e < -128 then
      -- 1 + ε or 1 − ε
      if n then roundNE f ftz false (2 ^ 128 - 1) (-128) true else roundNE f ftz false (2 ^ 128) (-128) true
    else if 20 < (m.log2 : Int) + e then
      if n then roundNE f ftz false (2 ^ 128) (-128 - big) true else roundNE f ftz false (2 ^ 128) (big - 128) true
    else
      let k := (-e).toNat
      refine (expAt f ftz (signed n m) k) (f.nanBits, 0) precisions

/-- log2(a) at a working precision, for a = x × 2^(i) with x = m / 2^l in (1, 2). -/
def logAt (f : FloatFmt) (ftz : Bool) (m l : Nat) (i : Int) (p : Nat) : Option (Nat × FFlags) :=
  let x := m * 2 ^ p / 2 ^ l
  let t := ln2Fix p
  let lo := lnFix p x * 2 ^ p / (t + p)
  let hi := (lnFix p x + 8 * p) * 2 ^ p / t + 2
  let a : Int := i * 2 ^ p + lo
  let b : Int := i * 2 ^ p + hi
  if 0 ≤ a then roundBetween f ftz false a.toNat b.toNat (-p)
  else if b ≤ 0 then roundBetween f ftz true (-b).toNat (-a).toNat (-p)
  else none

/-- log2(a) (R155). -/
def flogOp (f : FloatFmt) (ftz : Bool) (a : Nat) : Nat × FFlags :=
  match f.decode ftz a with
  | .nan q => (f.nanBits, fInv q)
  | .inf n => if n then (f.nanBits, fInvalid) else (f.infBits false, 0)
  | .fin n m e =>
    if m = 0 then (f.infBits true, fDz)
    else if n then (f.nanBits, fInvalid)
    else
      let l := m.log2
      let i : Int := e + l
      if m = 2 ^ l then intToF f ftz i
      else refine (logAt f ftz m l i) (f.nanBits, 0) precisions

end Sys2Proof.Machine
end

