-- ==== Sys2Proof/Machine/Access.lean ====
section
/-!
DEFINITION. Machine/Access.lean: reading and writing the parts of the state, and the wafer's geometry (R5, R301, R418
to R421).
-/
namespace Sys2Proof.Machine

/-! ### Parts of the state -/

/-- Tile `t`; an untouched tile is unpowered. -/
def State.tile (s : State) (t : Nat) : Tile := SMap.get {} s.tiles t
/-- The state with tile `t` replaced. -/
def State.setTile (s : State) (t : Nat) (x : Tile) : State := { s with tiles := s.tiles.put t x }
/-- Router of tile `r`; an untouched one has the wafer's generation. -/
def State.router (s : State) (r : Nat) : Router := SMap.get { gen := s.gen } s.routers r
/-- The state with a router replaced. -/
def State.setRouter (s : State) (r : Nat) (x : Router) : State := { s with routers := s.routers.put r x }
/-- Spur `p`. -/
def State.spur (s : State) (p : Nat) : Spur := SMap.get {} s.spurs p
/-- The state with a spur replaced. -/
def State.setSpur (s : State) (p : Nat) (x : Spur) : State := { s with spurs := s.spurs.put p x }
/-- Field `f`. -/
def State.field (s : State) (f : Nat) : Field := SMap.get {} s.fields f
/-- The state with a field replaced. -/
def State.setField (s : State) (f : Nat) (x : Field) : State := { s with fields := s.fields.put f x }
/-- Quay `q`. -/
def State.quay (s : State) (q : Nat) : Quay := SMap.get {} s.quays q
/-- The state with a quay replaced. -/
def State.setQuay (s : State) (q : Nat) (x : Quay) : State := { s with quays := s.quays.put q x }
/-- Reduction node `n`. -/
def State.node (s : State) (n : Nat) : RNode := SMap.get {} s.nodes n
/-- The state with a reduction node replaced. -/
def State.setNode (s : State) (n : Nat) (x : RNode) : State := { s with nodes := s.nodes.put n x }
/-- Job `j`. -/
def State.job (s : State) (j : Nat) : Job := SMap.get {} s.jobs j
/-- The state with a job replaced. -/
def State.setJob (s : State) (j : Nat) (x : Job) : State := { s with jobs := s.jobs.put j x }

/-- The tile with berth `b` replaced. -/
def Tile.setBerth (x : Tile) (b : Fin 5) (y : Berth) : Tile := { x with berths := x.berths.set b y }
/-- Berth `b` of tile `t`. -/
def State.berth (s : State) (t : Nat) (b : Fin 5) : Berth := (s.tile t).berths[b]
/-- The state with a berth replaced. -/
def State.setBerth (s : State) (t : Nat) (b : Fin 5) (y : Berth) : State := s.setTile t ((s.tile t).setBerth b y)

/-- The job that holds tile `t`. -/
def State.jobOf (s : State) (t : Nat) : Job := s.job (s.tile t).job.toNat

/-! ### Registers (R32, R25) -/

/-- A g register; g0 reads zero (R32). -/
def Berth.rg (b : Berth) (r : BitVec 6) : Word := if r = 0 then 0 else b.g.get r.toFin
/-- A v register. -/
def Berth.rv (b : Berth) (r : BitVec 5) : BitVec 512 := b.v.get r.toFin
/-- A p register; p0 reads all ones (R25). -/
def Berth.rp (b : Berth) (r : BitVec 4) : Word := if r = 0 then BitVec.allOnes 64 else b.p.get r.toFin
/-- A handle. -/
def Berth.hd (b : Berth) (m : BitVec 3) : Handle := b.handles.get m.toFin
/-- The berth with a handle replaced. -/
def Berth.setHd (b : Berth) (m : BitVec 3) (h : Handle) : Berth := { b with handles := b.handles.set m.toNat h m.isLt }

/-- The berth with a result written; writes to g0 and p0 are discarded (R25, R32). -/
def Berth.write (b : Berth) (d : Dest) (x : BitVec 512) : Berth :=
  match d with
  | .g r => if r = 0 then b else { b with g := b.g.set r.toNat (x.setWidth 64) r.isLt }
  | .v r => { b with v := b.v.set r.toNat x r.isLt }
  | .p r => if r = 0 then b else { b with p := b.p.set r.toNat (x.setWidth 64) r.isLt }

/-! ### Geometry -/

/-- Whether a logical index stands for a tile in use: one of the base configuration, or an enabled surplus tile (R420). -/
def State.enabled (s : State) (t : Nat) : Bool := decide (t % 2048 < 1024) || s.cairn.surplus.contains (BitVec.ofNat 17 t)

/-- The field of a tile (R5). -/
def fieldOf (t : Nat) : Nat := t / 2048
/-- The index of a tile within its field (R5). -/
def indexOf (t : Nat) : Nat := t % 2048

/-- SKIP0 of a physical row: a column from 0 to 32 (R419). -/
def skip0 (f y : Nat) : Nat := (Config.repairSkip0 f y).toNat % 33
/-- SKIP1 of a physical row: a column above SKIP0, at most 33 (R419). -/
def skip1 (f y : Nat) : Nat := skip0 f y + 1 + (Config.repairSkip1 f y).toNat % (33 - skip0 f y)

/-- Whether physical column `c` of a row carries a logical tile (R419). -/
def carries (f y c : Nat) : Bool := c != skip0 f y && c != skip1 f y

/-- How many logical columns lie below physical column `c` (R419). -/
def columnsBelow (f y c : Nat) : Nat := ((List.range c).filter (carries f y)).length

/-- The logical column that hosts the surplus tile at skipped column `c` (R419): the nearest lower column that carries a
logical tile, else the nearest higher one. -/
def hostColumn (f y c : Nat) : Nat := let n := columnsBelow f y c; if n = 0 then 0 else n - 1

/-- The logical index whose router and spur serve an index: its own below 1,024, its host's above (R420). -/
def hostIndex (f i : Nat) : Nat :=
  if i < 1024 then i
  else
    let y := (i - 1024) / 2
    let c := if (i - 1024) % 2 = 0 then skip0 f y else skip1 f y
    32 * y + hostColumn f y c

/-- The tile whose router serves tile `t` (R420). -/
def hostTile (t : Nat) : Nat := 2048 * fieldOf t + hostIndex (fieldOf t) (indexOf t)
/-- Column of a router within its field (R418). -/
def xOf (t : Nat) : Nat := indexOf (hostTile t) % 32
/-- Row of a router within its field (R418). -/
def yOf (t : Nat) : Nat := indexOf (hostTile t) / 32
/-- Column of a router in the module mesh (R418). -/
def meshX (t : Nat) : Nat := 32 * (fieldOf t % 8) + xOf t
/-- Row of a router in the module mesh (R418). -/
def meshY (t : Nat) : Nat := 32 * (fieldOf t / 8) + yOf t
/-- The router at a place of the module mesh. -/
def routerAt (x y : Nat) : Nat := 2048 * (8 * (y / 32) + x / 32) + 32 * (y % 32) + x % 32
/-- The spur of a tile, as JTALLOT numbers it (R418). -/
def spurOf (t : Nat) : Nat := 64 * fieldOf t + 8 * (yOf t / 4) + xOf t / 4
/-- The position of a logical tile in its spur, row-major (R369). -/
def spurPos (t : Nat) : Nat := 4 * (yOf t % 4) + xOf t % 4
/-- The 16 logical tiles of a spur, row-major. -/
def spurTiles (p : Nat) : List Nat :=
  (List.range 16).map fun k =>
    2048 * (p / 64) + 32 * (4 * (p % 64 / 8) + k / 4) + 4 * (p % 8) + k % 4
/-- The quadrant of a tile's field (R301). -/
def quadrantOf (t : Nat) : Nat :=
  let f := fieldOf t
  (if f / 8 < 4 then 0 else 2) + (if f % 8 < 4 then 0 else 1)

/-- The code of quay `q` in ORIG, DEST and LTN fields (R251). -/
def quayCode (q : Nat) : Nat := 0x7E0 + q
/-- The quay that a code names. -/
def codeQuay (c : Nat) : Option Nat := if 0x7E0 ≤ c ∧ c < 0x800 then some (c - 0x7E0) else none

/-- The field whose rim side a quay attaches to, and the side (R421). -/
def quayRim (q : Nat) : Nat × Port :=
  if q < 4 then (q, .n)
  else if q < 8 then (8 * (q - 4), .w)
  else if q < 12 then (4 + (q - 8), .n)
  else if q < 16 then (8 * (q - 12) + 7, .e)
  else if q < 20 then (56 + (q - 16), .s)
  else if q < 24 then (8 * (q - 20) + 32, .w)
  else if q < 28 then (60 + (q - 24), .s)
  else (8 * (q - 28) + 39, .e)

/-- The edge router of a quay on row or column `k` of its rim side (R421). -/
def quayRouter (q k : Nat) : Nat :=
  let (f, side) := quayRim q
  match side with
  | .n => 2048 * f + k
  | .s => 2048 * f + 32 * 31 + k
  | .w => 2048 * f + 32 * k
  | .e => 2048 * f + 32 * k + 31
  | .l => 2048 * f

end Sys2Proof.Machine

namespace Sys2Proof

/-- Port numbers: 0 N, 1 E, 2 S, 3 W, 4 L (R387, R388). -/
def Port.num : Port → Fin 5
  | .n => 0
  | .e => 1
  | .s => 2
  | .w => 3
  | .l => 4
/-- The port of a number. -/
def Port.ofNum : Nat → Port
  | 0 => .n
  | 1 => .e
  | 2 => .s
  | 3 => .w
  | _ => .l
/-- The port at the other end of a link. -/
def Port.opposite : Port → Port
  | .n => .s
  | .s => .n
  | .e => .w
  | .w => .e
  | .l => .l

end Sys2Proof

namespace Sys2Proof.Machine

/-- The router beyond a mesh port; none at the rim and for the local port. -/
def neighbour (r : Nat) (p : Port) : Option Nat :=
  let x := meshX r
  let y := meshY r
  match p with
  | .n => if y = 0 then none else some (routerAt x (y - 1))
  | .s => if y = 255 then none else some (routerAt x (y + 1))
  | .w => if x = 0 then none else some (routerAt (x - 1) y)
  | .e => if x = 255 then none else some (routerAt (x + 1) y)
  | .l => none

/-- The next port on the dimension-order route, along the row first (R252). -/
def dorPort (r dest : Nat) : Port :=
  if meshX r < meshX dest then .e
  else if meshX dest < meshX r then .w
  else if meshY r < meshY dest then .s
  else if meshY dest < meshY r then .n
  else .l

/-- Whether a port of a router is a border of its field (R389). -/
def crossesField (r : Nat) (p : Port) : Bool :=
  match neighbour r p with
  | some r' => fieldOf r' != fieldOf r
  | none => false

/-- The quay whose rim side a port of an edge router lies on (R421). -/
def rimQuay (r : Nat) (p : Port) : Option Nat :=
  (List.range 32).find? fun q => quayRim q == (fieldOf r, p) && (neighbour r p).isNone && p != .l

/-- The number of the reduction node at a port of a router. -/
def nodeId (r : Nat) (p : Port) : Nat := 8 * r + p.num.val
/-- The code that a reduction node has in ORIG: its quay's, or its border router's LTN (R396; log entry 33). -/
def nodeCode (n : Nat) : Nat :=
  match rimQuay (n / 8) (Port.ofNum (n % 8)) with
  | some q => quayCode q
  | none => n / 8

/-! ### The allotment (R233, R420, R434) -/

/-- The spurs that a job holds, ascending. -/
def State.spursOf (s : State) (j : Nat) : List Nat :=
  s.spurs.filterMap fun kv => if kv.2.job.toNat = j then some kv.1 else none

/-- The enabled surplus tiles of a job, ascending. -/
def State.surplusOf (s : State) (j : Nat) : List Nat :=
  (s.cairn.surplus.map fun t => t.toNat).filter fun t => (s.spur (spurOf t)).job.toNat == j

/-- The tiles of a job's allotment, in the order of R369. -/
def State.tilesOf (s : State) (j : Nat) : List Nat := (s.spursOf j).flatMap spurTiles ++ s.surplusOf j

/-! ### Field counters -/

/-- The cycle count of a tile's field. -/
def State.cycOf (s : State) (t : Nat) : Word := (s.field (fieldOf t)).cyc

/-- The state with activity of a class charged to a job in a field (R413). -/
def State.charge (s : State) (f cls job n : Nat) : State :=
  let x := s.field f
  let k := cls * 4096 + job
  s.setField f { x with activity := SMap.set 0 x.activity k (SMap.get 0 x.activity k + n) }

end Sys2Proof.Machine
end

