-- ==== Sys2Proof/Machine/Scratch.lean ====
section
/-!
DEFINITION. Machine/Scratch.lean: the scratchpad of a tile: its views (R127), the frame area within it (R237), and the
view hazards and joins of R137 and R138.
-/
namespace Sys2Proof.Machine

/-- Scratchpad bytes (R127). -/
def padSize : Nat := 524288
/-- First byte of the frame area (R237). -/
def frameBase : Nat := 0x76000
/-- The scratchpad window's address (R299). -/
def wbase : Nat := 0x4000000000

/-! ### Frames as words (R237) -/

/-- The STATE codes. -/
def FState.code : FState → BitVec 3
  | .free => 0
  | .wait => 1
  | .ready => 2
  | .bound => 3
  | .saved => 4
/-- The state of a code; the codes that are not used count as FREE. -/
def FState.ofCode (c : Nat) : FState :=
  match c with
  | 1 => .wait
  | 2 => .ready
  | 3 => .bound
  | 4 => .saved
  | _ => .free

/-- Word `i` of a frame: header words 0 to 3, then the slots. -/
def Frame.word (f : Frame) (i : Nat) : Word :=
  if i = 0 then 0#8 ++ f.ecls ++ BitVec.ofBool f.urg ++ f.st.code ++ 0#2 ++ f.tidx ++ f.tag
  else if i = 1 then 0#12 ++ f.age ++ f.last ++ f.nslot ++ 0#5 ++ f.req ++ f.pres
  else if i = 2 then 0#45 ++ f.ip
  else if i = 3 then f.lcyc
  else f.slots.getD (i - 4) 0

/-- The frame with word `i` replaced; reserved header bits stay 0. -/
def Frame.setWord (f : Frame) (i : Nat) (w : Word) : Frame :=
  if i = 0 then
    { f with ecls := w.extractLsb' 54 2, urg := w.getLsbD 53, st := FState.ofCode (wbits w 52 50),
             tidx := w.extractLsb' 32 16, tag := w.extractLsb' 0 32 }
  else if i = 1 then
    { f with age := w.extractLsb' 46 6, last := w.extractLsb' 42 4, nslot := w.extractLsb' 37 5,
             req := w.extractLsb' 16 16, pres := w.extractLsb' 0 16 }
  else if i = 2 then { f with ip := w.extractLsb' 0 19 }
  else if i = 3 then { f with lcyc := w }
  else { f with slots := f.slots.setIfInBounds (i - 4) w }

/-- A word with byte `k` replaced. -/
def setByteOf (w : Word) (k : Nat) (b : Byte) : Word :=
  BitVec.ofNat 64 (w.toNat - w.toNat / 2 ^ (8 * k) % 256 * 2 ^ (8 * k) + b.toNat * 2 ^ (8 * k))

/-- Frame `f` of a tile. -/
def Tile.frame (x : Tile) (f : Nat) : Frame := SMap.get {} x.frames f
/-- The tile with a frame replaced. -/
def Tile.setFrame (x : Tile) (f : Nat) (y : Frame) : Tile := { x with frames := x.frames.put f y }
/-- The frames of a tile that are not FREE, by number. -/
def Tile.liveFrames (x : Tile) : List Nat := (List.range 256).filter fun f => (x.frame f).st != .free

/-! ### Bytes -/

/-- The byte at a linear offset, frame area included; nothing lies beyond the scratchpad. -/
def Tile.padByte (x : Tile) (p : Nat) : Byte :=
  if padSize ≤ p then 0
  else if frameBase ≤ p then
    let k := (p - frameBase) % 160
    ((x.frame ((p - frameBase) / 160)).word (k / 8)).extractLsb' (8 * (k % 8)) 8
  else SMap.get 0 x.pad p

/-- The tile with the byte at a linear offset replaced. -/
def Tile.setPadByte (x : Tile) (p : Nat) (b : Byte) : Tile :=
  if padSize ≤ p then x
  else if frameBase ≤ p then
    let f := (p - frameBase) / 160
    let k := (p - frameBase) % 160
    let y := x.frame f
    x.setFrame f (y.setWord (k / 8) (setByteOf (y.word (k / 8)) (k % 8) b))
  else { x with pad := SMap.set 0 x.pad p b }

/-- Bytes from a linear offset up. -/
def Tile.padBytes (x : Tile) (p n : Nat) : List Byte := readN x.padByte p n

/-- The tile with bytes written from a linear offset up. -/
def Tile.setPadBytes (x : Tile) : Nat → List Byte → Tile
  | _, [] => x
  | p, b :: r => Tile.setPadBytes (x.setPadByte p b) (p + 1) r

/-- A 64-bit word at a linear offset. -/
def Tile.padWord (x : Tile) (p : Nat) : Word := BitVec.ofNat 64 (leNat (x.padBytes p 8))
/-- The tile with a 64-bit word written at a linear offset. -/
def Tile.setPadWord (x : Tile) (p : Nat) (w : Word) : Tile := x.setPadBytes p (leBytes 8 w.toNat)

/-- How many 64-byte accesses the scratchpad makes for `n` bytes from an offset (R413). -/
def padLines (off n : Nat) : Nat := if n = 0 then 0 else (off + n + 63) / 64 - off / 64
/-- Scratchpad accesses charged to a tile's job (R413). -/
def State.chargePad (s : State) (t n : Nat) : State := s.charge (fieldOf t) 7 (s.tile t).job.toNat n

/-! ### Views (R127, R137) -/

/-- The views of the scratchpad; instruction fetch counts as a third. -/
inductive View | linear | swizzled | fetch
  deriving DecidableEq, Repr

/-- The linear offset of the byte that a view names at window offset `x`: the swizzled view exclusive-ors the bank
number with x[15:11] (R127). -/
def View.phys (v : View) (x : Nat) : Nat :=
  match v with
  | .swizzled => x - bits x 10 6 * 64 + (bits x 10 6 ^^^ bits x 15 11) * 64
  | _ => x

/-- Whether a join orders a marked write before an access by `acc`: a berth, or an engine acting for none (R138). -/
def ViewMark.covers (m : ViewMark) (acc : Option (Fin 5)) : Bool :=
  match acc with
  | some b => m.joined.getLsbD b.val
  | none =>
    m.released ||
      match m.src with
      | .berth b => m.joined.getLsbD b.val
      | _ => false

/-- Whether a marked write conflicts with an access through a view (R137). -/
def ViewMark.conflicts (m : ViewMark) (acc : Option (Fin 5)) (v : View) : Bool :=
  !m.covers acc &&
    match v with
    | .linear => m.swz
    | .swizzled => !m.swz
    | .fetch => true

/-- The marks that make an access to a byte a hazard, newest first: those of the writes after the newest one that does not conflict. -/
def Tile.hazards (x : Tile) (acc : Option (Fin 5)) (v : View) (p : Nat) : List ViewMark :=
  (x.marks.filter fun m => m.line == p / 64 && m.mask.getLsbD (p % 64)).takeWhile fun m => m.conflicts acc v

/-- Whether an access to a byte meets a hazard. -/
def Tile.hazard (x : Tile) (acc : Option (Fin 5)) (v : View) (p : Nat) : Bool := !(x.hazards acc v p).isEmpty

/-- The byte of a line that a read takes under the hazards of some writes, newest first: the value after a write, or the value before it and
so on down, as free choices (R137). -/
def hazardByte (n p : Nat) (cur : Byte) : Nat → List ViewMark → Byte
  | _, [] => cur
  | i, m :: r => if Config.oldGranule n i then hazardByte n p (m.old.extractLsb' (8 * (p % 64)) 8) (i + 1) r else cur

/-- The bytes that a view reads at window offset `off`, with whether the read meets a hazard. Under a hazard each
4-byte granule is the old or the new value: a free choice (R137). -/
def Tile.viewRead (x : Tile) (fresh : Nat) (acc : Option (Fin 5)) (v : View) (off n : Nat) : List Byte × Bool :=
  let one (i : Nat) : Byte :=
    let p := v.phys i
    hazardByte (fresh + (i / 4 - off / 4)) p (x.padByte p) 0 (x.hazards acc v p)
  (readN one off n, (List.range n).any fun i => x.hazard acc v (v.phys (off + i)))

/-- A line's bytes: those of a mask from one value, the others from another. -/
def pickBytes (mask : BitVec 64) (x y : BitVec 512) : BitVec 512 :=
  BitVec.ofNat 512 (leNat ((List.range 64).map fun i => (if mask.getLsbD i then x else y).extractLsb' (8 * i) 8))

/-- The marks after a write of some bytes of a line: a mark of its own with the line before it; a write of the same source and view to other
bytes than the line's newest, which no join or release has covered, joins that one's mark. -/
def Tile.markWrite (x : Tile) (src : MarkSrc) (swz : Bool) (line : Nat) (mask : BitVec 64) : Tile :=
  let now : BitVec 512 := BitVec.ofNat 512 (leNat (x.padBytes (64 * line) 64))
  let m : ViewMark := { line, swz, src, released := false, joined := 0, mask, old := now }
  match x.marks.find? fun m => m.line == line with
  | some k =>
    if k.src = src ∧ k.swz = swz ∧ k.joined = 0 ∧ k.released = false ∧ k.mask &&& mask = 0 then
      { x with marks := { k with mask := k.mask ||| mask, old := pickBytes mask now k.old } :: x.marks.erase k }
    else { x with marks := m :: x.marks }
  | none => { x with marks := m :: x.marks }

/-- The bytes of a line, among the first `n` from window offset `off`, that a view writes. -/
def lineMask (v : View) (off n line : Nat) : BitVec 64 :=
  BitVec.ofNat 64
    (((List.range n).filter fun i => v.phys (off + i) / 64 == line).foldl
      (fun a i => a ||| 2 ^ (v.phys (off + i) % 64)) 0)

/-- The lines that a view touches from window offset `off`. -/
def viewLines (v : View) (off n : Nat) : List Nat :=
  (((List.range n).map fun i => v.phys (off + i) / 64).eraseDups)

/-- The tile after a write through a view, with whether it meets a hazard. Under a hazard each granule keeps the value of
either write (R137). -/
def Tile.viewWrite (x : Tile) (fresh : Nat) (src : MarkSrc) (acc : Option (Fin 5)) (v : View) (off : Nat)
    (bytes : List Byte) : Tile × Bool :=
  let n := bytes.length
  let hz := (List.range n).any fun i => x.hazard acc v (v.phys (off + i))
  let marked := (viewLines v off n).foldl (fun y l => y.markWrite src (decide (v = .swizzled)) l (lineMask v off n l)) x
  let put (y : Tile) (ib : Nat × Byte) : Tile :=
    let p := v.phys (off + ib.1)
    if x.hazard acc v p && Config.oldGranule (fresh + ((off + ib.1) / 4 - off / 4)) 0 then y
    else y.setPadByte p ib.2
  (((List.range n).zip bytes).foldl put marked, hz)

/-- The tile after berth `b` joins the views for its own writes (R138). -/
def Tile.joinOwn (x : Tile) (b : Fin 5) : Tile :=
  { x with marks := x.marks.map fun m =>
      if m.src = .berth b then { m with joined := m.joined ||| BitVec.ofNat 5 (2 ^ b.val) } else m }

/-- The tile after a release of scope tile or wider by berth `b`: it covers the berth's own writes and those joined to it (R138, R291). -/
def Tile.releaseMarks (x : Tile) (b : Fin 5) : Tile :=
  { x with marks := x.marks.map fun m => if m.src = .berth b ∨ m.joined.getLsbD b.val then { m with released := true } else m }

/-- The tile after every berth joins the expert bytes of claims: they are visible once EVANS counts their answers (R341). -/
def Tile.joinClaims (x : Tile) : Tile :=
  { x with marks := x.marks.map fun m => if m.src = .claim then { m with joined := BitVec.allOnes 5 } else m }

/-- The tile after an acquire of scope tile or wider by berth `b`: it joins the released writes of other berths, and
deposits and the bank's writes (R138). -/
def Tile.acquireMarks (x : Tile) (b : Fin 5) : Tile :=
  { x with marks := x.marks.map fun m =>
      if m.released || m.src = .deposit || m.src = .bank || m.src = .claim then
        { m with joined := m.joined ||| BitVec.ofNat 5 (2 ^ b.val) }
      else m }

/-- The tile after berth `b` observes that a macro is DONE: its writes are joined to the berth (R174). -/
def Tile.joinMacro (x : Tile) (b : Fin 5) (uid : Nat) : Tile :=
  { x with marks := x.marks.map fun m =>
      if m.src = .mac uid then { m with joined := m.joined ||| BitVec.ofNat 5 (2 ^ b.val) } else m }

end Sys2Proof.Machine
end

