-- ==== Sys2Proof/Machine/Records.lean ====
section
/-!
DEFINITION. Machine/Records.lean: device reads and writes of physical memory, the fault queues and their records
(R357 to R360), the placement of physical addresses in channels (R304 to R306), and the observation records of the trace port (R402, R403, R408).
-/
namespace Sys2Proof.Machine

/-! ### Physical memory (R300) -/

/-- Whether a physical address is populated: HBM4E or the LPDDR tier (R300). -/
def populated (pa : Nat) : Bool := decide (pa < 2 ^ 41) || (decide (2 ^ 43 ≤ pa) && decide (pa < 2 ^ 44))

/-- Whether a run of bytes is populated. -/
def populatedRun (pa n : Nat) : Bool := populated pa && populated (pa + (n - 1))

/-- The state once a device unit has been directed to `n` bytes at a physical address. -/
def State.need (s : State) (pa n : Nat) : State :=
  if n = 0 || populatedRun pa n || s.stuck.isSome then s else { s with stuck := some pa }

/-! ### Channel placement (R304 to R306) -/

/-- Whether a range is in use and holds a physical address (R304). -/
def ChanRange.holds (r : ChanRange) (pa : Nat) : Bool :=
  wbit r.w1 3 && decide (wbits r.w0 19 0 ≤ pa / 2 ^ 21) && decide (pa / 2 ^ 21 < wbits r.w0 52 32)

/-- The channel index and local address of offset `x` in a range of `n` channels under a hash (R305). -/
def hashPlace (hash n x : Nat) : Nat × Nat :=
  let g := x / 256
  let k := n.log2
  let l := g / 2 ^ k
  match hash with
  | 0 => (g % n, g / n * 256 + x % 256)
  | 1 => (x / 4096 % n, x / 4096 / n * 4096 + x % 4096)
  | 2 => ((g ^^^ (g / 2 ^ k) ^^^ (g / 2 ^ (2 * k))) % 2 ^ k, l * 256 + x % 256)
  | 3 => ((g ^^^ (l / 2 ^ 9)) % 2 ^ k, l * 256 + x % 256)
  | 4 =>
    let b := g / 1024
    let r := g % 1024
    (if 1021 ≤ r then r else (r + b) % 1021, b * 256 + x % 256)
  | 5 => (x / 2 ^ 21 % n, x / 2 ^ 21 / n * 2 ^ 21 + x % 2 ^ 21)
  | 6 =>
    let h := x / 4096
    ((h ^^^ (h / 2 ^ k)) % 2 ^ k, h / 2 ^ k * 4096 + x % 4096)
  | _ => (if k = 0 then 0 else (g ^^^ (l * 0x9E3779B1 % 2 ^ 32 / 2 ^ (32 - k))) % 2 ^ k, l * 256 + x % 256)

/-- The channel and local address of an HBM4E address (R304, R305). -/
def State.channelOf (s : State) (pa : Nat) : Nat × Nat :=
  match s.ranges.find? fun kr => kr.2.holds pa with
  | some (_, r) =>
    let (c, l) := hashPlace (wbits r.w1 2 0) (wbits r.w1 24 14) (pa - wbits r.w0 19 0 * 2 ^ 21)
    (wbits r.w1 13 4 + c, l)
  | none => hashPlace 0 1024 pa

/-- Whether a physical address is populated, its place in its channel included (R300, R306). -/
def State.reachable (s : State) (pa : Nat) : Bool :=
  populated pa && (decide (2 ^ 41 ≤ pa) || decide ((s.channelOf pa).2 < 2 ^ 31))

/-- Where the memory holds the byte of a physical address: its place in its channel on HBM4E (R304), the address elsewhere. -/
def State.cell (s : State) (pa : Nat) : Nat :=
  if pa < 2 ^ 41 then (s.channelOf pa).1 * 2 ^ 31 + (s.channelOf pa).2 else pa

/-- A byte of physical memory. -/
def State.pb (s : State) (pa : Nat) : Byte := SMap.get 0 s.mem (s.cell pa)
/-- The state with a byte of physical memory replaced. -/
def State.setPb (s : State) (pa : Nat) (b : Byte) : State := { s with mem := SMap.set 0 s.mem (s.cell pa) b }
/-- The state with bytes replaced from a physical address up. -/
def State.putBytes (s : State) : Nat → List Byte → State
  | _, [] => s
  | a, b :: r => State.putBytes (s.setPb a b) (a + 1) r
/-- Bytes of physical memory. -/
def State.pbytes (s : State) (pa n : Nat) : List Byte := readN s.pb pa n
/-- A 64-bit word of physical memory. -/
def State.pw (s : State) (pa : Nat) : Word := BitVec.ofNat 64 (leNat (s.pbytes pa 8))
/-- A 32-bit word of physical memory. -/
def State.pw4 (s : State) (pa : Nat) : Nat := leNat (s.pbytes pa 4)

/-- The state with bytes written at a physical address. -/
def State.pwrite (s : State) (pa : Nat) (bs : List Byte) : State :=
  (s.need pa bs.length).putBytes pa bs

/-- The state with a 64-bit word written at a physical address. -/
def State.pwriteWord (s : State) (pa : Nat) (w : Word) : State := s.pwrite pa (leBytes 8 w.toNat)

/-! ### Fault records (R359, R360) -/

/-- A fault record. -/
structure FaultRec where
  /-- TYPE. -/
  typ : Nat
  berth : Nat := 7
  ltn : Nat := 0
  inc : BitVec 8 := 0
  job : BitVec 12 := 0
  frame : BitVec 8 := 0
  tidx : BitVec 16 := 0
  tag : BitVec 32 := 0
  /-- Word 3. -/
  addr : Word := 0
  w4 : Word := 0
  w5 : Word := 0
  w6 : Word := 0
  w7 : Word := 0
  deriving DecidableEq, Repr

/-- The eight words of a record (R359). CYC is that of the field of the tile named; a record that names no tile takes
field 0's. -/
def recWords (s : State) (r : FaultRec) (ovf : Bool) : List Word :=
  let f := match codeQuay r.ltn with
    | some q => (quayRim q).1
    | none => fieldOf r.ltn
  [BitVec.ofNat 64 (b2n ovf * 2 ^ 56 + r.berth % 8 * 2 ^ 53 + s.gen.toNat * 2 ^ 45 + r.ltn % 2 ^ 17 * 2 ^ 28
      + r.inc.toNat * 2 ^ 20 + r.job.toNat * 2 ^ 8 + r.typ % 256),
   (s.field f).cyc,
   BitVec.ofNat 64 (r.frame.toNat * 2 ^ 48 + r.tidx.toNat * 2 ^ 32 + r.tag.toNat),
   r.addr, r.w4, r.w5, r.w6, r.w7]

/-- The bytes of a list of words. -/
def wordsBytes (ws : List Word) : List Byte := ws.flatMap fun w => leBytes 8 w.toNat

/-- Whether a queue has room: PROD − CONS < 2^LOGN (R357). -/
def State.queueRoom (s : State) (h : Nat) : Bool :=
  let prod := (s.pw (h + 16)).toNat % 2 ^ 32
  let cons := (s.pw (h + 24)).toNat % 2 ^ 32
  decide ((prod + 2 ^ 32 - cons) % 2 ^ 32 < 2 ^ (wbits (s.pw (h + 8)) 4 0))

/-- The queue with a record written and PROD incremented (R357). -/
def State.queuePut (s : State) (h : Nat) (ws : List Word) : State :=
  let s := s.need h 64
  let prod := (s.pw (h + 16)).toNat % 2 ^ 32
  let a := (s.pw h).toNat + 64 * (prod % 2 ^ (wbits (s.pw (h + 8)) 4 0))
  let s := s.pwrite a (wordsBytes ws)
  s.pwriteWord (h + 16) (BitVec.ofNat 64 ((prod + 1) % 2 ^ 32))

/-- The queue with DROP incremented (R357). -/
def State.queueDrop (s : State) (h : Nat) : State :=
  s.pwriteWord (h + 32) (s.pw (h + 32) + 1)

/-- A record that waits in the cairn controller's pending store, or is lost (R358). -/
def State.pendRecord (s : State) (ws : List Word) : State :=
  if s.cairn.pending.length < 16 then
    { s with cairn := { s.cairn with pending := s.cairn.pending ++ [ws] } }
  else { s with orphlost := satInc s.orphlost 1 }

/-- Words posted to the orphan queue: absent, full or with room (R357, R358). -/
def State.postOrphanWords (s : State) (ws : List Word) : State :=
  if s.orphq = 0 then s.pendRecord ws
  else if s.queueRoom s.orphq.toNat then s.queuePut s.orphq.toNat ws
  else s.queueDrop s.orphq.toNat

/-- A record posted to the orphan queue. -/
def State.postOrphan (s : State) (r : FaultRec) (ovf : Bool) : State := s.postOrphanWords (recWords s r ovf)

/-- A record posted to a queue of a job, redirected to the orphan queue when the queue is absent or full (R357,
R358). -/
def State.postQueue (s : State) (h : Word) (r : FaultRec) : State :=
  if h = 0 then s.postOrphan r true
  else if s.queueRoom h.toNat then s.queuePut h.toNat (recWords s r false)
  else (s.queueDrop h.toNat).postOrphan r true

/-- A record posted to a job's fault queue. -/
def State.postJob (s : State) (j : Nat) (r : FaultRec) : State := s.postQueue (s.job j).fq r

/-- A record of a job captured at issue: it goes to the orphan queue when the job is ending, free or of another
incarnation (R362). -/
def State.postCaptured (s : State) (j : Nat) (inc : BitVec 8) (r : FaultRec) : State :=
  let x := s.job j
  if x.st = .ending ∨ x.st = .free ∨ x.inc ≠ inc then s.postOrphan r false else s.postJob j r

/-- A record of a tile's job, with its incarnation. -/
def State.jobRec (s : State) (t : Nat) (typ : Nat) : FaultRec :=
  { typ, ltn := t, job := (s.tile t).job, inc := (s.jobOf t).inc }

/-! ### Observation records (R402, R403, R408) -/

/-- A 32-byte observation record. -/
def obsRecord (s : State) (t typ slot berth : Nat) (cyc : Word) (frame : Nat) (tidx : BitVec 16) (tag : BitVec 32)
    (w3 : Word) : BitVec 256 :=
  let w0 : Word := BitVec.ofNat 64
    (slot % 16 * 2 ^ 52 + berth % 8 * 2 ^ 49 + s.gen.toNat * 2 ^ 41 + t % 2 ^ 17 * 2 ^ 24
      + (s.tile t).job.toNat * 2 ^ 12 + typ % 256)
  let w2 : Word := BitVec.ofNat 64 (frame % 256 * 2 ^ 48 + tidx.toNat * 2 ^ 32 + tag.toNat)
  w3 ++ w2 ++ cyc ++ w0

/-- A record made at a tile: it enters the tile's trace queue, or is dropped and counted (R408). A field whose trace
port is off (TRBASE 0) takes none. -/
def State.traceRec (s : State) (t : Nat) (r : BitVec 256) : State :=
  let x := s.tile t
  if (s.field (fieldOf t)).trbase = 0 then s
  else if x.traceQ.length < 4 then s.setTile t { x with traceQ := x.traceQ ++ [r] }
  else s.setTile t { x with trdrop := satInc x.trdrop 1 }

/-- Whether the tile's trace queue takes a record. -/
def State.traceRoom (s : State) (t : Nat) : Bool :=
  (s.field (fieldOf t)).trbase != 0 && decide ((s.tile t).traceQ.length < 4)

end Sys2Proof.Machine
end

