-- ==== Sys2Proof/Machine/Tables.lean ====
section
/-!
DEFINITION. Machine/Tables.lean: reading the tables of a job in physical memory, and the entries that the device reads as it needs
them: a tensor's retention (R254) and a population (R329, R330).
-/
namespace Sys2Proof.Machine

/-! ### Reading with checks -/

/-- Why a table is not taken: a check fails, or no memory holds an address that it names (R300). -/
inductive TableStop
  | bad
  | hole (pa : Nat)
  deriving DecidableEq, Repr

/-- What is read of a table. -/
abbrev Rd (α : Type) := Except TableStop α

/-- A check of a table. -/
def ensure (b : Bool) : Rd Unit := if b then .ok () else .error .bad

/-- Bytes of a table. -/
def State.rdBytes (s : State) (pa n : Nat) : Rd (List Byte) :=
  if n = 0 || populatedRun pa n then .ok (s.pbytes pa n) else .error (.hole pa)

/-- A 64-bit word of a table. -/
def State.rdWord (s : State) (pa : Nat) : Rd Word := (s.rdBytes pa 8).map fun bs => BitVec.ofNat 64 (leNat bs)

/-- Every entry of a table read in turn. -/
def rdAll {α : Type} (f : Nat → Rd α) : List Nat → Rd (List α)
  | [] => .ok []
  | i :: r => (f i).bind fun a => (rdAll f r).map fun l => a :: l

/-- A list of `n` 4-byte entries that hold an LTN in [16:0], the rest being reserved. -/
def State.rdTiles (s : State) (pa n : Nat) : Rd (List (BitVec 17)) :=
  rdAll (fun i => (s.rdBytes (pa + 4 * i) 4).bind fun bs =>
    (ensure (decide (leNat bs < 2 ^ 17))).map fun _ => BitVec.ofNat 17 (leNat bs)) (List.range n)

/-! ### Tensor entries (R254) -/

/-- KEEP of a tensor of a job, as its name-directory fragment holds it; 0 without an entry. -/
def State.keepOf (s : State) (job : Nat) (tens : BitVec 24) : BitVec 32 :=
  let h := (s.job job).ndir.toNat
  let tent := (s.pw (h + 16)).toNat
  match (List.range (wbits (s.pw h) 63 32)).find? fun i => (s.pw (tent + 16 * i)).extractLsb' 0 24 == tens with
  | some i => (s.pw (tent + 16 * i)).extractLsb' 32 32
  | none => 0

/-! ### Populations (R329) -/

/-- Entry `i` of a population table, its tile list apart, and the address of that list. -/
def State.popEntry (s : State) (table i : Nat) : Pop × Nat :=
  let p := table + 8 + 32 * i
  let w0 := s.pw p
  let w1 := s.pw (p + 8)
  ({ id := w0.extractLsb' 0 24, set := w0.extractLsb' 24 6, neur := w0.extractLsb' 32 20, per := w1.extractLsb' 0 14,
     entbase := w1.extractLsb' 14 13, list := [] }, (s.pw (p + 16)).toNat)

/-- The number of tiles of a population: ⌈(NEUR + 1) / PER⌉. -/
def Pop.tiles (p : Pop) : Nat := (p.neur.toNat + p.per.toNat) / p.per.toNat

/-- A population of a job with its tile list. -/
def State.findPop (s : State) (job : Nat) (id : BitVec 24) : Option Pop :=
  let table := (s.job job).pop.toNat
  if table = 0 then none
  else
    match (List.range (s.pw4 table)).find? fun i => (s.popEntry table i).1.id == id with
    | some i =>
      let (p, a) := s.popEntry table i
      some { p with list := (List.range p.tiles).map fun k => BitVec.ofNat 17 (s.pw4 (a + 4 * k)) }
    | none => none

end Sys2Proof.Machine
end

