-- ==== Sys2Proof/Machine/NetBase.lean ====
section
/-!
DEFINITION. Machine/NetBase.lean: names and summits (R196, R253), making and injecting packets (R251, R252, R266), and
the origin's side of subscriptions (R203, R257, R258).
-/
namespace Sys2Proof.Machine

/-! ### Names (R196, R253) -/

/-- TENS of a name. -/
def nameTens (n : Word) : BitVec 24 := n.extractLsb' 40 24
/-- BROW of a name. -/
def nameRow (n : Word) : BitVec 20 := n.extractLsb' 20 20
/-- BCOL of a name. -/
def nameCol (n : Word) : BitVec 20 := n.extractLsb' 0 20
/-- The name of a tensor's block. -/
def mkName (t : BitVec 24) (r c : BitVec 20) : Word := t ++ r ++ c
/-- ITER of a tag. -/
def tagIter (t : BitVec 32) : BitVec 20 := t.extractLsb' 0 20
/-- CTX of a tag. -/
def tagCtx (t : BitVec 32) : BitVec 12 := t.extractLsb' 20 12

/-- The hash of R253, modulo 2^32. -/
def nameHash (job : BitVec 12) (n : Word) : BitVec 32 :=
  let k : BitVec 32 :=
    (nameTens n).setWidth 32 * 0x9E3779B1#32 + (nameRow n).setWidth 32 * 0x85EBCA77#32
      + (nameCol n).setWidth 32 * 0xC2B2AE3D#32 + job.setWidth 32 * 0x27D4EB2F#32
  let k := k ^^^ (k >>> 15)
  let k := k * 0x2C1B3C6D#32
  k ^^^ (k >>> 12)

/-- The summit of a name under a summit list (R253). -/
def summitIn (sl : List (BitVec 17)) (job : BitVec 12) (n : Word) : BitVec 17 :=
  sl.getD ((nameHash job n).toNat % sl.length) 0

/-- The summit of a name of a job. -/
def State.summitOf (s : State) (job : BitVec 12) (n : Word) : BitVec 17 := summitIn (s.job job.toNat).slist job n

/-- Whether a tag satisfies a subscription's mode (R203). -/
def tagMatches (mode : BitVec 2) (want got : BitVec 32) : Bool :=
  if mode = 0 then got == want
  else if mode = 1 then true
  else tagCtx got == tagCtx want && decide ((tagIter want).toNat ≤ (tagIter got).toNat)

/-! ### Injection (R251, R252, R266) -/

/-- The entry of the job's JTREM list that homes a tensor on another module (R394). -/
def State.remoteOf (s : State) (job : BitVec 12) (tens : BitVec 24) : Option RemEnt :=
  (s.job job.toNat).rems.find? fun e => decide (e.tens0.toNat ≤ tens.toNat) && decide (tens.toNat ≤ e.tens1.toNat)

/-- A packet injected by tile `t`: the tile stamps JOB, GEN, ORIG, OMOD and the next OSEQ of its packet counter, and the
packet stands at the tile's own router (R251, R273, R420). -/
def State.injectAt (s : State) (t : Nat) (p : Packet) : State × Packet :=
  let x := s.tile t
  let p := { p with job := x.job, gen := (s.router (hostTile t)).gen, orig := BitVec.ofNat 17 t, omod := s.modid,
                    oseq := x.oseq, place := .router (hostTile t), inp := .l, want := [], routed := false,
                    detour := false, path := [] }
  ({ s.setTile t { x with oseq := x.oseq + 1 } with packets := s.packets ++ [p] }, p)

/-- The binding of a berth. -/
def State.issuer (s : State) (t : Nat) (b : Fin 5) : Issuer :=
  let y := s.berth t b
  { berth := b, bind := y.bind, tidx := ((s.tile t).frame y.frame.toNat).tidx, tag := y.tag, frame := y.frame }

/-- The issuer of what no binding caused (R437). -/
def noIssuer : Issuer := { berth := 4, bind := 0, tidx := 0, tag := 0, frame := 0 }

/-- A packet injected by tile `t` whose copy stays in the egress buffer until its ACK (R266); the injection enters the
tile's map of R411. -/
def State.inject (s : State) (t : Nat) (who : Issuer) (p : Packet) : State × Packet :=
  let (s, p) := s.injectAt t p
  let x := s.tile t
  let st : Staged := { pkt := p, resends := 0, who, inc := (s.jobOf t).inc }
  (s.setTile t { x with egress := x.egress ++ [st], injected := ((p.oseq, who.bind) :: x.injected).take 1024 }, p)

/-- An ACK or STALE, which is not acknowledged (R266). -/
def State.injectPlain (s : State) (t : Nat) (p : Packet) : State := (s.injectAt t p).1

/-! ### Edge routers (R421) -/

/-- Whether a router works: its field is powered and it was not retired (R375, R434). -/
def State.routerLive (s : State) (r : Nat) : Bool := (s.field (fieldOf r)).powered && !(s.router r).dead

/-- The distance along a quay's rim side between a router and the edge router on row or column `k` of that side. -/
def rimDistance (q r k : Nat) : Nat :=
  let e := quayRouter q k
  if (quayRim q).2 = .n ∨ (quayRim q).2 = .s then (meshX e - meshX r) + (meshX r - meshX e) else (meshY e - meshY r) + (meshY r - meshY e)

/-- The edge router of a quay by which a packet at router `r` reaches it: the live one that is nearest along the rim, the lower of two
(R421; log entry 20). -/
def State.edgeRouter (s : State) (q r : Nat) : Option Nat :=
  let live := (List.range 32).filter fun k => s.routerLive (quayRouter q k)
  let near := live.foldl (fun (a : Option Nat) k =>
    match a with
    | some b => if rimDistance q r k < rimDistance q r b then some k else some b
    | none => some k) none
  near.map fun k => quayRouter q k

/-- The edge router at which a quay injects a packet: the one by which a packet from its destination reaches the quay. -/
def State.quayGate (s : State) (q : Nat) (dest : BitVec 17) : Nat :=
  let r := match codeQuay dest.toNat with
    | some k => quayRouter k 0
    | none => hostTile dest.toNat
  (s.edgeRouter q r).getD (quayRouter q 0)

/-- A packet that a quay injects (R264): ORIG is the quay's code. -/
def State.injectQuay (s : State) (q : Nat) (job : BitVec 12) (p : Packet) (keep : Bool) : State × Packet :=
  let y := s.quay q
  let r := s.quayGate q p.dest
  let p := { p with job := job, gen := (s.router r).gen, orig := BitVec.ofNat 17 (quayCode q), omod := s.modid,
                    oseq := y.oseq, place := .router r, inp := (quayRim q).2, want := [], routed := false,
                    detour := false, path := [] }
  let st : Staged := { pkt := p, resends := 0, who := noIssuer, inc := (s.job job.toNat).inc }
  ({ s.setQuay q { y with oseq := y.oseq + 1, egress := if keep then y.egress ++ [st] else y.egress } with
       packets := s.packets ++ [p] }, p)

/-- The DMOD of a packet that climbs toward a name: the home module of a remote name's publications (R395). -/
def State.dmodFor (s : State) (job : BitVec 12) (n : Word) (pub : Bool) : BitVec 19 :=
  match s.remoteOf job (nameTens n) with
  | some e => if pub then e.mod else s.modid
  | none => s.modid

/-- A PUB packet (R201). -/
def State.mkPub (s : State) (job : BitVec 12) (n : Word) (tag : BitVec 32) (pl : List (BitVec 256)) : Packet :=
  { typ := 0, vc := 2, name := n, tag := tag, payload := pl, dest := s.summitOf job n, dmod := s.dmodFor job n true }

/-- The flits of a byte list (R251). -/
def flitsOf : Nat → List Byte → List (BitVec 256)
  | 0, _ => []
  | n + 1, bs => BitVec.ofNat 256 (leNat (bs.take 32)) :: flitsOf n (bs.drop 32)

/-- The bytes of a payload. -/
def payloadBytes (fs : List (BitVec 256)) : List Byte := fs.flatMap fun f => leBytes 32 f.toNat

/-! ### Subscriptions at the origin (R203, R257, R258) -/

/-- The names of a subscription's range, in the order of its buffer (R203). -/
def SubRec.names (r : SubRec) : List Word :=
  (List.range (r.row1.toNat + 1 - r.row0.toNat)).flatMap fun i =>
    (List.range (r.col1.toNat + 1 - r.col0.toNat)).map fun j =>
      mkName r.tens (r.row0 + BitVec.ofNat 20 i) (r.col0 + BitVec.ofNat 20 j)

/-- The index of a name in a subscription's range (R203). -/
def SubRec.indexOf (r : SubRec) (n : Word) : Nat :=
  ((nameRow n).toNat - r.row0.toNat) * (r.col1.toNat + 1 - r.col0.toNat) + ((nameCol n).toNat - r.col0.toNat)

/-- Whether a name lies in a subscription's range. -/
def SubRec.holds (r : SubRec) (n : Word) : Bool :=
  r.tens == nameTens n && decide (r.row0.toNat ≤ (nameRow n).toNat) && decide ((nameRow n).toNat ≤ r.row1.toNat)
    && decide (r.col0.toNat ≤ (nameCol n).toNat) && decide ((nameCol n).toNat ≤ r.col1.toNat)

/-- The tag of a subscription. -/
def SubRec.tag (r : SubRec) : BitVec 32 := r.bop.extractLsb' 0 32
/-- Its frame. -/
def SubRec.frame (r : SubRec) : BitVec 8 := r.bop.extractLsb' 32 8
/-- Its slot. -/
def SubRec.slot (r : SubRec) : BitVec 4 := r.bop.extractLsb' 40 4

/-- Whether two subscriptions have the same record, frame, slot and tag (R204). -/
def SubRec.same (a b : SubRec) : Bool :=
  a.addr == b.addr && a.bop == b.bop && a.tens == b.tens && a.mode == b.mode && a.row0 == b.row0 && a.row1 == b.row1
    && a.col0 == b.col0 && a.col1 == b.col1 && a.dst == b.dst && a.cap == b.cap

/-- The distinct summits of a subscription's names (R258). -/
def State.subSummits (s : State) (job : BitVec 12) (r : SubRec) : List (BitVec 17) :=
  (r.names.map (s.summitOf job)).eraseDups

/-- A SUB, UNSUB or REQ packet that carries a subscription's pattern (R258). -/
def State.subPacket (s : State) (typ : BitVec 4) (r : SubRec) (summit : BitVec 17) : Packet :=
  { typ, vc := 0, name := mkName r.tens r.row0 r.col0, row1 := r.row1, col1 := r.col1, mode := r.mode, tag := r.tag,
    frame := r.frame, slot := r.slot, dest := summit, dmod := s.modid }

/-- One packet of a type to each of a list of summits. -/
def State.sendPattern (s : State) (t : Nat) (who : Issuer) (typ : BitVec 4) (r : SubRec) :
    List (BitVec 17) → State × List (BitVec 17 × BitVec 32)
  | [] => (s, [])
  | m :: ms =>
    let (s, p) := s.inject t who (s.subPacket typ r m)
    let (s, l) := s.sendPattern t who typ r ms
    (s, (m, p.oseq) :: l)

/-- How a subscription starts: with a status at once, or with answers to await. -/
inductive SubStart
  | now (status : BitVec 4)
  | op (id : Nat)
  deriving DecidableEq, Repr

/-- A SUB at its issuing tile (R257, R258): the local record, and one packet for each distinct summit. A full store ends
it with TBLFULL; a subscription that stands already is OK (R204). -/
def State.startSub (s : State) (t : Nat) (who : Issuer) (r : SubRec) (goal : SubTo) : State × SubStart :=
  let x := s.tile t
  if x.subs.any fun y => y.same r then (s, .now 0)
  else if 256 ≤ x.subs.length then (s, .now 1)
  else
    let id := s.uid
    let s := { s.setTile t { x with subs := x.subs ++ [r] } with uid := s.uid + 1 }
    let (s, w) := s.sendPattern t who 1 r (s.subSummits x.job r)
    let x := s.tile t
    let o : SubOp := { op := id, unsub := false, sub := r, waits := w, status := 0, goal, tidx := who.tidx,
                       inc := (s.jobOf t).inc }
    (s.setTile t { x with subOps := x.subOps ++ [o] }, .op id)

/-- An UNSUB at its issuing tile (R204, R258): without an equal local record its status is NOSUB. -/
def State.startUnsub (s : State) (t : Nat) (who : Issuer) (r : SubRec) (goal : SubTo) : State × SubStart :=
  let x := s.tile t
  match x.subs.find? fun y => y.same r with
  | none => (s, .now 3)
  | some y =>
    let id := s.uid
    let s := { s with uid := s.uid + 1 }
    let (s, w) := s.sendPattern t who 2 y (s.subSummits x.job y)
    let x := s.tile t
    let o : SubOp := { op := id, unsub := true, sub := y, waits := w, status := 0, goal, tidx := who.tidx,
                       inc := (s.jobOf t).inc }
    (s.setTile t { x with subOps := x.subOps ++ [o] }, .op id)

/-- Record 0x13, the status of a subscription whose D is g0 or which a template made (R199, R236, R360). -/
def State.postSubStatus (s : State) (t : Nat) (status : BitVec 4) (r : SubRec) (tidx : BitVec 16) : State :=
  s.postJob (s.tile t).job.toNat
    { s.jobRec t 0x13 with frame := r.frame, tidx, tag := r.tag, w4 := status.setWidth 64, w5 := r.addr, w6 := r.bop }

end Sys2Proof.Machine
end

