-- ==== Sys2Proof/Machine/Frames.lean ====
section
/-!
DEFINITION. Machine/Frames.lean: templates, creating, firing, filling and releasing frames (R234, R236 to R241, R250).
-/
namespace Sys2Proof.Machine

/-- The template of an index, as the device read it at START. -/
def State.tmpl (s : State) (t : Nat) (x : BitVec 16) : Option Tmpl := (s.jobOf t).tmpls[x.toNat]?

/-- The kind of slot `k` of a template: 0 value, 1 tile, 2 index, 3 event (R240). -/
def Tmpl.kind (m : Tmpl) (k : Nat) : Nat := wbits m.kinds (4 * k + 3) (4 * k)

/-- The tile on which a frame of a template with a tag is created (R234). -/
def Tmpl.tileFor (m : Tmpl) (tag : BitVec 32) : Option Nat :=
  if m.list.isEmpty then none else some (m.list.getD ((tagIter tag).toNat % m.list.length) 0).toNat

/-- The number of names in a template's subscription. -/
def subNames (q : BitVec 24 × BitVec 20 × BitVec 20 × BitVec 20 × BitVec 20 × BitVec 4 × BitVec 2) : Nat :=
  let (_, r0, r1, c0, c1, _, _) := q
  (r1.toNat + 1 - r0.toNat) * (c1.toNat + 1 - c0.toNat)

/-- The subscription records that a template's frame installs (R236), `seen` names lying before. -/
def tmplSubs (m : Tmpl) (f : Nat) (tag : BitVec 32) :
    Nat → List (BitVec 24 × BitVec 20 × BitVec 20 × BitVec 20 × BitVec 20 × BitVec 4 × BitVec 2) → List SubRec
  | _, [] => []
  | seen, q :: qs =>
    let (tens, r0, r1, c0, c1, slot, mode) := q
    { addr := 0, bop := 0#20 ++ slot ++ BitVec.ofNat 8 f ++ tag, tens, mode, row0 := r0, row1 := r1, col0 := c0,
      col1 := c1, dst := m.dbase + BitVec.ofNat 19 (32 * m.dstr.toNat * f + 32 * m.cap.toNat * seen),
      cap := m.cap.setWidth 16, counted := [], strm := none, held := [] }
      :: tmplSubs m f tag (seen + subNames q) qs

/-- A template subscription installed with its frame: its status is posted unless it is OK (R236). -/
def State.installSub (s : State) (t : Nat) (tidx : BitVec 16) (r : SubRec) : State :=
  match s.startSub t noIssuer r .post with
  | (s, .now st) => if st = 0 then s else s.postSubStatus t st r tidx
  | (s, .op _) => s

/-- A type-3 record of a firing, when the field traces the template (R403, R409). -/
def State.traceFiring (s : State) (t f : Nat) : State :=
  let y := (s.tile t).frame f
  if (s.field (fieldOf t)).trfire = y.tidx ∧ y.tidx ≠ 0xFFFF then
    s.traceRec t (obsRecord s t 3 y.last.toNat 7 y.lcyc f y.tidx y.tag
      (BitVec.ofNat 64 (y.pres.toNat + y.req.toNat * 2 ^ 16)))
  else s

/-- The word 3 of a critical-path step (R403). -/
def stepWord (bind step fin mark : Nat) : Word :=
  BitVec.ofNat 64 (bind % 2 ^ 32 + step % 64 * 2 ^ 32 + fin % 16 * 2 ^ 38 + mark % 2 ^ 16 * 2 ^ 42)

/-- END of the record of a step at tile `t`, `n` steps having been written with it (R411). -/
def stepEnd (t n depth : Nat) (o : Option Origin) : Nat :=
  match o with
  | none => 1
  | some (.packet g _ far) =>
    if far || (codeQuay g.toNat).isSome || fieldOf g.toNat != fieldOf t then 2 else if depth ≤ n then 4 else 0
  | some (.binding _) => if depth ≤ n then 4 else 0

/-- A marker started at a qualifying firing: step 0 and the walk that goes on from it (R404, R411). -/
def State.startMarker (s : State) (t f : Nat) : State :=
  let x := s.tile t
  let c := x.cpcfg.toNat
  let y := x.frame f
  if c % 2 = 0 then s
  else if ¬(bits c 1 1 = 1 ∨ bits c 31 16 = y.tidx.toNat) then s
  else if x.markCount + 1 < 2 ^ (bits c 6 2) then s.setTile t { x with markCount := x.markCount + 1 }
  else
    let s := s.setTile t { x with markCount := 0 }
    let fd := s.field (fieldOf t)
    let depth := bits c 12 7
    let fin := stepEnd t 1 depth y.origin
    let r := obsRecord s t 6 y.last.toNat 7 y.lcyc f y.tidx y.tag (stepWord 0 0 fin fd.marker.toNat)
    let room := s.traceRoom t
    let s := s.setField (fieldOf t) { fd with marker := fd.marker + 1 }
    let s := s.traceRec t r
    match y.origin with
    | some o =>
      if fin = 0 && room then
        { s with cpWalks := s.cpWalks ++
            [{ origin := o, tile := t, step := 1, depth, mark := fd.marker, job := x.job }] }
      else s
    | none => s

/-- A frame fires: READY, with LAST, LCYC and the origin of the fill (R239, R411). -/
def State.fire (s : State) (t f : Nat) (last : BitVec 4) (o : Option Origin) : State :=
  let x := s.tile t
  let y := x.frame f
  let s := s.setTile t (x.setFrame f { y with st := .ready, last, lcyc := s.cycOf t, origin := o })
  (s.traceFiring t f).startMarker t f

/-- The lowest-numbered FREE frame of a tile (R238). -/
def Tile.freeFrame (x : Tile) : Option Nat := (List.range 256).find? fun f => (x.frame f).st == .free

/-- A type-2 record of a fill into a selected edge (R403, R409). -/
def State.traceFill (s : State) (t f k : Nat) : State :=
  let y := (s.tile t).frame f
  let sel := (s.field (fieldOf t)).trsel.toList.any fun w =>
    wbit w 63 && wbits w 32 29 == k && wbits w 28 17 == (s.tile t).job.toNat && wbits w 16 0 == y.tidx.toNat
  if sel then s.traceRec t (obsRecord s t 2 k 7 (s.cycOf t) f y.tidx y.tag (y.slots.getD k 0)) else s

/-- A frame of a template created on a tile (R237, R238), with the slot and token of an emission (R239) and the
template's subscriptions installed (R236); `none` when no frame is free. -/
def State.createFrame (s : State) (t : Nat) (tidx : BitVec 16) (tag : BitVec 32) (token : Option (BitVec 4 × Word)) :
    State × Option Nat :=
  let x := s.tile t
  match s.tmpl t tidx, x.freeFrame with
  | some m, some f =>
    let slots : Vector Word 16 := Vector.replicate 16 0
    let y : Frame := { st := .wait, ecls := m.ecls, urg := m.urg, tidx, tag, nslot := m.nslot.setWidth 5, req := m.req,
                       ip := m.entry.setWidth 19 + ((s.jobOf t).ilen).setWidth 19,
                       slots := match token with
                         | some (k, w) => slots.setIfInBounds k.toNat w
                         | none => slots,
                       pres := match token with
                         | some (k, _) => BitVec.ofNat 16 (2 ^ k.toNat)
                         | none => 0 }
    let s := s.setTile t (x.setFrame f y)
    let s := match token with
      | some (k, _) => s.traceFill t f k.toNat
      | none => s
    let s := (tmplSubs m f tag 0 m.subs).foldl (fun s r => s.installSub t tidx r) s
    let s := if y.pres &&& y.req = y.req then
        s.fire t f (match token with | some (k, _) => k | none => 0) none
      else s
    (s, some f)
  | _, _ => (s, none)

/-- UNSUB packets for a subscription, and its local record and the operations that await it removed; a SUB still in
flight for it ends REFUSED (R204). -/
def State.dropSub (s : State) (t : Nat) (r : SubRec) : State :=
  let x := s.tile t
  let ops := x.subOps.map fun o =>
    if o.sub.same r && !o.unsub && o.status.toNat < 4 then { o with status := 4 } else o
  let s := s.setTile t { x with subs := x.subs.filter fun y => !y.same r, subOps := ops }
  (s.sendPattern t noIssuer 2 r (s.subSummits x.job r)).1

/-! ### Counter chains (R120 to R122) -/

/-- The index of a level. -/
def chainIndex (w : Word) (k : Nat) : Nat := wbits w (14 * k + 13) (14 * k)

/-- LASTk of the next emission (R121). -/
def Chain.lastAt (c : Chain) (k : Nat) : Bool := decide (c.depth.toNat < k) || chainIndex c.cpos k == chainIndex c.clim k

/-- The index token of the next emission (R121). -/
def Chain.token (c : Chain) : Word :=
  BitVec.ofNat 64 (c.cpos.toNat % 2 ^ 56 + (List.range 4).foldl (fun a k => a + b2n (c.lastAt k) * 2 ^ (56 + k)) 0)

/-- The odometer advanced from level `k` down to level 0, the levels above `k` being at 0. -/
def odometer (lim : Word) : Nat → Nat → Nat
  | 0, pos => if bits pos 13 0 = chainIndex lim 0 then 0 else pos + 1
  | k + 1, pos =>
    let i := bits pos (14 * (k + 1) + 13) (14 * (k + 1))
    if i = chainIndex lim (k + 1) then odometer lim k (pos - i * 2 ^ (14 * (k + 1))) else pos + 2 ^ (14 * (k + 1))

/-- A chain after an emission: the tag's iteration, the indices and the count advance, and the last emission clears RUN and sets
DONE (R122). -/
def Chain.step (c : Chain) : Chain :=
  let last := [0, 1, 2, 3].all c.lastAt
  { c with paused := false, run := c.run && !last, done := c.done || last, cemit := c.cemit + 1,
           ctag := tagCtx c.ctag ++ (tagIter c.ctag + 1),
           cpos := BitVec.ofNat 64 (odometer c.clim c.depth.toNat c.cpos.toNat) }

/-- The tile with a chain advanced past an emission. -/
def Tile.stepChain (x : Tile) (c : BitVec 2) : Tile := { x with chains := x.chains.set c.toNat (x.chains.get c.toFin).step c.isLt }

/-- A released frame becomes FREE, its subscriptions end, and it goes to the SPAWN or emission that has waited longest
(R204, R238). The slot words keep their bytes. -/
def State.releaseFrame (s : State) (t f : Nat) : State :=
  let x := s.tile t
  let y := x.frame f
  let s := s.setTile t (x.setFrame f { y with st := .free })
  let s := ((s.tile t).subs.filter fun r => r.frame.toNat == f).foldl (fun s r => s.dropSub t r) s
  match (s.tile t).spawns with
  | [] => s
  | w :: ws =>
    let s := s.setTile t { s.tile t with spawns := ws }
    let s := match w.chain with
      | some c => s.setTile t ((s.tile t).stepChain c)
      | none => s
    (s.createFrame t w.tidx w.tag w.token).1

/-- Linear offset of the save area of a berth. -/
def saveBase (x : Tile) (b : Nat) : Nat := x.ssave.toNat + 0x4400 * b

/-- The tile with bytes written by the device at a linear offset; the device's writes leave no view mark on them. -/
def Tile.deviceWrite (x : Tile) (p : Nat) (bs : List Byte) : Tile :=
  let x := x.setPadBytes p bs
  let left (m : ViewMark) : ViewMark := { m with mask := m.mask &&& ~~~(lineMask .linear p bs.length m.line) }
  { x with marks := (x.marks.map left).filter fun m => m.mask != 0 }

/-- The wait latch of a berth set: in its save area while its binding is saved (R221). -/
def Tile.wake (x : Tile) (b : Fin 5) : Tile :=
  let y := x.berths[b]
  match y.status with
  | .trapped | .held =>
    let p := saveBase x b.val + 0x2B0
    x.deviceWrite p [x.padByte p ||| 1]
  | _ => x.setBerth b { y with latch := true }

/-- The berth that is bound to a frame or holds its saved binding. -/
def Tile.berthOf (x : Tile) (f : Nat) : Option (Fin 5) :=
  ([0, 1, 2, 3] : List (Fin 5)).find? fun b =>
    let y := x.berths[b]
    y.frame.toNat == f && y.status != .free && y.status != .ending && (x.frame f).st != .free

/-- The wait latch of the berth bound to a frame is set (R221). -/
def State.wakeFrame (s : State) (t f : Nat) : State :=
  match (s.tile t).berthOf f with
  | some b => s.setTile t ((s.tile t).wake b)
  | none => s

/-- A slot word written with its presence bit, and the frame's firing when the required mask is complete (R239). -/
def State.applySlot (s : State) (t f k : Nat) (v : Word) (o : Option Origin) (setsWord : Bool) : State :=
  let x := s.tile t
  let y := x.frame f
  let y' := { y with slots := if setsWord then y.slots.setIfInBounds k v else y.slots,
                     pres := y.pres ||| BitVec.ofNat 16 (2 ^ k) }
  let s := s.setTile t (x.setFrame f y')
  let s := s.traceFill t f k
  let s := if y.st = .wait ∧ y'.pres &&& y'.req = y'.req ∧ y.pres &&& y.req ≠ y.req then
      s.fire t f (BitVec.ofNat 4 k) o
    else s
  s.wakeFrame t f

/-- Record 0x15 of a fill that is dropped (R207, R360). -/
def State.postLateFill (s : State) (t : Nat) (q : Fill) : State :=
  let y := (s.tile t).frame q.frame.toNat
  s.postJob (s.tile t).job.toNat
    { s.jobRec t 0x15 with frame := q.frame, tidx := y.tidx, tag := y.tag,
                           w4 := BitVec.ofNat 64 (q.frame.toNat + q.slot.toNat * 256), w5 := q.value }

/-- Whether a frame has fired. -/
def Frame.fired (y : Frame) : Bool :=
  match y.st with
  | .ready | .bound | .saved => true
  | _ => false

/-- One fill applied by the frame engine (R207, R239, R240, R336). -/
def State.applyFill (s : State) (t : Nat) (q : Fill) : State :=
  let y := (s.tile t).frame q.frame.toNat
  match q.kind with
  | .fslot =>
    if y.fired || y.st = .free then s.postLateFill t q
    else s.applySlot t q.frame.toNat q.slot.toNat q.value q.origin true
  | .firing =>
    let isEvent := match s.tmpl t y.tidx with
      | some m => m.kind q.slot.toNat == 3 && decide (q.slot.toNat < m.nslot.toNat)
      | none => false
    if y.fired || y.st = .free || !isEvent then s.postLateFill t q
    else s.applySlot t q.frame.toNat q.slot.toNat q.value q.origin true
  | .delivery =>
    -- an FSLOT into the same slot that made the frame fire came first: the delivery's fill is dropped, but for the latch (R207, R239)
    let second := y.fired && y.last == q.slot && (match y.origin with
      | some (.binding _) => true
      | _ => false)
    if y.st = .free then s
    else if second then s.wakeFrame t q.frame.toNat
    else
      let s := s.setTile t ((s.tile t).setFrame q.frame.toNat { y with deliv := y.deliv ||| BitVec.ofNat 16 (2 ^ q.slot.toNat) })
      s.applySlot t q.frame.toNat q.slot.toNat q.value q.origin true

end Sys2Proof.Machine
end

