-- ==== Sys2Proof/Machine/Cache.lean ====
section
/-!
DEFINITION. Machine/Cache.lean: accesses at a home with its LLC slice (R302, R307 to R309, R318), watchpoints checked there (R363), and the
sectors of the tile data cache and the spur cache (R280, R283, R307).
A physical key is an address of this module, or an address of another module with one more than the module's number above bit 44.
-/
namespace Sys2Proof

/-- The operation of a RED as an atomic's. -/
def RedOp.amo : RedOp → AmoOp
  | .add => .add
  | .min => .min
  | .max => .max
  | .and => .and
  | .or => .or
  | .xor => .xor

/-- The width in bytes of an atomic. -/
def AmoW.bytes : AmoW → Nat
  | .w => 4
  | .d => 8

/-- Whether a scope's serving level lies past the tile data cache (R280). -/
def Scope.tdcLevel : Scope → Bool
  | .berth | .tile => false
  | _ => true
/-- Whether it reaches past the spur cache (R280). -/
def Scope.spurLevel : Scope → Bool
  | .berth | .tile | .spur => false
  | _ => true

end Sys2Proof

namespace Sys2Proof.Machine

/-! ### Homes (R302) -/

/-- The address of a physical key within its module. -/
def keyPa (key : Nat) : Nat := key % 2 ^ 44
/-- Whether a physical key is one of another module. -/
def remoteKey (key : Nat) : Bool := decide (2 ^ 44 ≤ key)

/-- The quay whose LLC slice serves a physical key (R302): its home, or for a page of another module the quay that its address would have
here (log entry 65). -/
def State.homeQuay (s : State) (key : Nat) : Nat :=
  let pa := keyPa key
  if pa < 2 ^ 41 then (s.channelOf pa).1 / 32 else (pa - 2 ^ 43) / 4096 % 64 / 2

/-- The bank of an LLC slice that holds a sector: PA[11:6] (R302). -/
def llcBank (sec : Nat) : Nat := sec / 2 % 64

/-- Sectors of one LLC bank: 96 MiB in 64 banks (R307). -/
def llcSectors : Nat := 49152

/-- On whose behalf a home performs an access: the tile or quay that sent it, its field and its job. -/
structure Asker where
  ltn : Nat
  job : BitVec 12
  /-- A unit whose accesses are charged to no field: a Filhus core, or another module (R413). -/
  unit : Bool := false
  deriving DecidableEq, Repr

/-- The field that an access is charged to. -/
def Asker.field (a : Asker) : Nat :=
  match codeQuay a.ltn with
  | some q => (quayRim q).1
  | none => fieldOf a.ltn

/-- An access at a home charged to its asker's field and job (R413). -/
def State.chargeFor (s : State) (a : Asker) (cls : Nat) : State := if a.unit then s else s.charge a.field cls a.job.toNat 1

/-- A tile as the asker. -/
def State.asker (s : State) (t : Nat) : Asker := { ltn := t, job := (s.tile t).job }

/-! ### Channels and LLC slices -/

/-- The counters of a channel after an access of `n` bytes at an HBM4E address (R318). -/
def State.chanCount (s : State) (key n : Nat) (write : Bool) : State :=
  let (c, l) := s.channelOf key
  let rk := c * 128 + bits l 8 8 * 64 + bits l 14 9
  let row := bits l 30 17
  let x := SMap.get {} s.chans c
  let x := if write then { x with bwr := satInc x.bwr n } else { x with brd := satInc x.brd n }
  let x := { x with refst := satInc x.refst (Config.refreshWait s.fresh).toNat }
  let x := match SMap.get none s.rows rk with
    | some r => if r = row then x else { x with act := satInc x.act 1, rconf := satInc x.rconf 1 }
    | none => { x with act := satInc x.act 1 }
  { s with fresh := s.fresh + 1, chans := s.chans.put c x, rows := s.rows.put rk (some row) }

/-- An access of `n` bytes to the memory tier of a home: its channel counters and its energy (R318, R413). -/
def State.tierAccess (s : State) (a : Asker) (key n : Nat) (write : Bool) : State :=
  if remoteKey key then s
  else if 2 ^ 41 ≤ key then s.chargeFor a 15
  else (s.chargeFor a 14).chanCount key n write

/-- How many bytes a mask names. -/
def maskCount (m : BitVec 32) : Nat := ((List.range 32).filter m.getLsbD).length

/-- The LLC slice of a quay with its bank of a sector within its room: the least recently used sector leaves it, its dirty bytes being
written to its tier (R307). -/
def State.llcEvict (s : State) (a : Asker) (q sec : Nat) : State :=
  let y := s.quay q
  let bank := y.llc.filter fun e => llcBank e.key == llcBank sec
  if bank.length + (y.remote.filter fun e => llcBank e.key == llcBank sec).length ≤ llcSectors then s
  else match bank.getLast? with
    | none => s
    | some e =>
      let s := s.setQuay q { y with llc := y.llc.erase e }
      if e.dirty = 0 then s else s.tierAccess a (32 * e.key) (maskCount e.dirty) true

/-- The LLC slice of a home after an access to a sector: a read brings in bytes that it lacks from the tier; a write leaves its bytes dirty
there (R307, R318). -/
def State.llcTouch (s : State) (a : Asker) (sec : Nat) (write : Option (BitVec 32)) : State :=
  let q := s.homeQuay (32 * sec)
  let s := s.chargeFor a 13
  let e := ((s.quay q).llc.find? fun e => e.key == sec).getD { key := sec, have_ := 0, dirty := 0 }
  let s := if write.isNone && e.have_ != BitVec.allOnes 32 then s.tierAccess a (32 * sec) 32 false else s
  let e' : LlcSec := match write with
    | none => { e with have_ := BitVec.allOnes 32 }
    | some m => { e with have_ := e.have_ ||| m, dirty := e.dirty ||| m }
  let y := s.quay q
  (s.setQuay q { y with llc := e' :: y.llc.filter fun z => z.key != sec }).llcEvict a q sec

/-- The same of every sector of a run of bytes. -/
def State.llcRun (s : State) (a : Asker) (key n : Nat) (write : Bool) : State :=
  (List.range ((key + n + 31) / 32 - key / 32)).foldl (fun s i =>
    s.llcTouch a (key / 32 + i) (if write then some (BitVec.allOnes 32) else none)) s

/-- The watchpoint of a job that a write touches: its number, for a window offset (`sp` false) or a physical address
(R363). -/
def Job.watchHit (j : Job) (sp : Bool) (lo n : Nat) : Option Nat :=
  (List.range 8).find? fun k =>
    let w0 := j.wp0.getD k 0
    let a := wbits w0 43 0
    wbit w0 63 && wbit w0 62 == sp && decide (a < lo + n) && decide (lo < a + wbits (j.wp1.getD k 0) 31 0)

/-- Record 0x1D of a write performed at a home or at a scratchpad port (R360, R363). -/
def State.postWatch (s : State) (job : Nat) (ltn addr num cls who : Nat) : State :=
  s.postJob job { typ := 0x1D, ltn, job := BitVec.ofNat 12 job, inc := (s.job job).inc, w4 := BitVec.ofNat 64 addr,
                  w5 := BitVec.ofNat 64 num, w6 := BitVec.ofNat 64 cls, w7 := BitVec.ofNat 64 who }

/-- Watchpoint records of one write of some bytes that reaches its home: those of jobs other than `own`, or of every job when `own` is
0; one record for each job, at the first byte that its watchpoint holds (R363). -/
def State.watchBytes (s : State) (own cls who : Nat) (pas : List Nat) : State :=
  s.jobs.foldl (fun s kj =>
    if kj.1 = own then s
    else match pas.findSome? fun pa => (kj.2.watchHit true pa 1).map fun k => (pa, k) with
      | some (pa, k) => s.postWatch kj.1 who pa k cls who
      | none => s) s

/-- The same of a run of bytes. -/
def State.watchHome (s : State) (own cls who pa n : Nat) : State := s.watchBytes own cls who ((List.range n).map (pa + ·))

/-- Bytes that a quay or another device unit writes at a home (R363). -/
def State.unitWrite (s : State) (who pa : Nat) (bs : List Byte) : State := (s.pwrite pa bs).watchHome 0 5 who pa bs.length

/-- The result of a read-modify-write on `n` bytes (R143, R144). -/
def rmwNew (op : AmoOp) (n : Nat) (old b c : Nat) : Nat :=
  let m := 2 ^ (8 * n)
  let sg (x : Nat) : Int := if x < m / 2 then (x : Int) else (x : Int) - (m : Int)
  match op with
  | .add => (old + b) % m
  | .min => if sg b < sg old then b else old
  | .max => if sg old < sg b then b else old
  | .and => old &&& b
  | .or => old ||| b
  | .xor => old ^^^ b
  | .swp => b
  | .cas => if old = c then b else old

/-! ### Sectors -/

/-- A byte mask as a mask of bits. -/
def expandMask (m : BitVec 32) : BitVec 256 :=
  (List.range 32).foldl (fun a i => if m.getLsbD i then a ||| (0xFF#256 <<< (8 * i)) else a) 0

/-- The bytes of `a` where the mask is set, of `b` elsewhere. -/
def mergeBytes (m : BitVec 32) (a b : BitVec 256) : BitVec 256 :=
  let e := expandMask m
  (a &&& e) ||| (b &&& ~~~e)


/-- The bytes of a sector that a mask names, each with its place. -/
def maskedBytes (m : BitVec 32) (d : BitVec 256) : List (Nat × Byte) :=
  ((List.range 32).filter m.getLsbD).map fun i => (i, d.extractLsb' (8 * i) 8)

/-- The memory with the bytes of a sector that a mask names replaced. -/
def State.putMasked (s : State) (sec : Nat) (m : BitVec 32) (d : BitVec 256) : State :=
  (maskedBytes m d).foldl (fun s ib => s.setPb (32 * sec + ib.1) ib.2) s

/-- The bytes of a sector in memory. -/
def State.sectorBytes (s : State) (sec : Nat) : BitVec 256 := BitVec.ofNat 256 (leNat (s.pbytes (32 * sec) 32))

/-- Whether a byte of a run is poisoned (R364). -/
def State.poisoned (s : State) (key n : Nat) : Bool := (List.range n).any fun i => SMap.get false s.poison (key + i)

/-- The lock of a granule at its home (R320). -/
def State.lockAt (s : State) (gran : Nat) : BitVec 4 := SMap.get 0 s.locks gran

/-! ### Copies of another module's sectors in an LLC slice (R280) -/

/-- What an invalidation leaves of a sector: its dirty bytes (R283). -/
def Sector.dropClean (p : Sector → Bool) (c : Sector) : Option Sector :=
  if p c then (if c.dirty = 0 then none else some { c with have_ := c.dirty, lock := none }) else some c

/-- The dirty bytes of a copy written at the home module, watched there as another module's write is here (log entry 65). -/
def State.sendHome (s : State) (c : Sector) : State := s.putMasked c.key c.dirty c.data

/-- A copy kept by a quay as its most recently used; one that its bank has no room for leaves it. -/
def State.keepRemote (s : State) (c : Sector) : State :=
  let q := s.homeQuay (32 * c.key)
  let y := s.quay q
  let all := c :: y.remote.filter fun z => z.key != c.key
  let bank := all.filter fun e => llcBank e.key == llcBank c.key
  let room := llcSectors - (y.llc.filter fun e => llcBank e.key == llcBank c.key).length
  let out := bank.drop room
  out.foldl State.sendHome (s.setQuay q { y with remote := all.filter fun e => !out.contains e })

/-- A copy held by a quay. -/
def State.remoteCopy (s : State) (sec : Nat) : Sector :=
  ((s.quay (s.homeQuay (32 * sec))).remote.find? fun c => c.key == sec).getD
    { key := sec, data := 0, have_ := 0, dirty := 0, lock := none }

/-- A sector of another module read through the copy of its LLC slice. -/
def State.remoteRead (s : State) (a : Asker) (sec : Nat) : State × BitVec 256 :=
  let c := s.remoteCopy sec
  let d := mergeBytes c.have_ c.data (s.sectorBytes sec)
  ((s.chargeFor a 13).keepRemote { c with data := d, have_ := BitVec.allOnes 32 }, d)

/-- A sector of another module written in the copy of its LLC slice. -/
def State.remoteWrite (s : State) (a : Asker) (sec : Nat) (m : BitVec 32) (d : BitVec 256) : State :=
  let c := s.remoteCopy sec
  (s.chargeFor a 13).keepRemote
    { c with data := mergeBytes m d c.data, have_ := c.have_ ||| m, dirty := c.dirty ||| m }

/-- The copy of a sector brought home and dropped: an access performed at the home module comes after it. -/
def State.settleRemote (s : State) (sec : Nat) : State :=
  let q := s.homeQuay (32 * sec)
  let s := s.sendHome (s.remoteCopy sec)
  let y := s.quay q
  s.setQuay q { y with remote := y.remote.filter fun z => z.key != sec }

/-- The dirty bytes of every copy of another module's sectors brought home: the last part of a release at `.sys` (R280). -/
def State.flushRemote (s : State) : State :=
  (List.range 32).foldl (fun s q =>
    let s := (s.quay q).remote.foldl State.sendHome s
    let y := s.quay q
    s.setQuay q { y with remote := y.remote.map fun c => { c with dirty := 0 } }) s

/-- The clean bytes of every copy dropped: the last part of an acquire at `.sys` (R280). -/
def State.dropRemote (s : State) : State :=
  (List.range 32).foldl (fun s q =>
    let y := s.quay q
    s.setQuay q { y with remote := y.remote.filterMap (Sector.dropClean fun _ => true) }) s

/-! ### Accesses performed at a home (R281, R302, R308, R309) -/

/-- A sector read at its home: at the ALU of a memory-side page, at the home module of another module's SO page, else at the LLC slice. -/
def State.homeRead (s : State) (a : Asker) (so mside : Bool) (sec : Nat) : State × BitVec 256 :=
  if remoteKey (32 * sec) then
    if so || mside then let s := s.settleRemote sec; (s, s.sectorBytes sec) else s.remoteRead a sec
  else
    let s := if mside then s.tierAccess a (32 * sec) 32 false else s.llcTouch a sec none
    (s, s.sectorBytes sec)

/-- Bytes of a sector written at its home, as one write (R363). -/
def State.homeWrite (s : State) (a : Asker) (so mside : Bool) (sec : Nat) (m : BitVec 32) (d : BitVec 256) : State :=
  let pas := ((List.range 32).filter m.getLsbD).map (32 * sec + ·)
  if remoteKey (32 * sec) then
    if so || mside then (s.settleRemote sec).putMasked sec m d else s.remoteWrite a sec m d
  else
    let s := if mside then s.tierAccess a (32 * sec) (maskCount m) true else s.llcTouch a sec (some m)
    (s.putMasked sec m d).watchBytes a.job.toNat 4 a.ltn pas

/-- The mask and data of `n` bytes of a sector from byte `o` of it. -/
def sectorPut (o : Nat) (bs : List Byte) : BitVec 32 × BitVec 256 :=
  (BitVec.ofNat 32 ((2 ^ bs.length - 1) * 2 ^ o), BitVec.ofNat 256 (leNat bs * 2 ^ (8 * o)))

/-- A read-modify-write of `n` bytes at their home: the old value (R143, R144, R308, R309). -/
def State.homeRmw (s : State) (a : Asker) (mside : Bool) (op : AmoOp) (key n : Nat) (b c : Word) : State × Nat :=
  let (s, d) := s.homeRead a true mside (key / 32)
  let old := d.toNat / 2 ^ (8 * (key % 32)) % 2 ^ (8 * n)
  let new := rmwNew op n old (b.toNat % 2 ^ (8 * n)) (c.toNat % 2 ^ (8 * n))
  let (m, w) := sectorPut (key % 32) (leBytes n new)
  (s.homeWrite a true mside (key / 32) m w, old)

/-- A run of bytes read at its home. -/
def State.homeBytes (s : State) (a : Asker) (key n : Nat) : State × List Byte :=
  if remoteKey key then
    (List.range ((key + n + 31) / 32 - key / 32)).foldl (fun (x : State × List Byte) i =>
      let (s, d) := x.1.homeRead a false false (key / 32 + i)
      (s, (x.2 ++ leBytes 32 d.toNat).drop (if i = 0 then key % 32 else 0))) (s, []) |> fun (s, bs) => (s, bs.take n)
  else (s.llcRun a key n false, s.pbytes key n)

/-- A run of bytes of this module written at its home. -/
def State.homePut (s : State) (a : Asker) (key : Nat) (bs : List Byte) : State :=
  ((s.llcRun a key bs.length true).putBytes key bs).watchHome a.job.toNat 4 a.ltn key bs.length

/-- A lock written at a home, and its entry in the retag log (R148, R320, R321). -/
def State.setLock (s : State) (a : Asker) (key : Nat) (lock : BitVec 4) : State :=
  let old := s.lockAt (key / 32)
  let s := { s with locks := SMap.set 0 s.locks (key / 32) lock }
  if remoteKey key then s
  else
    let s := s.llcTouch a (key / 32) none
    let q := s.quay (s.homeQuay key)
    let e : BitVec 128 := BitVec.ofNat 128 (key / 32 + lock.toNat * 2 ^ 39 + old.toNat * 2 ^ 43
      + a.job.toNat * 2 ^ 47 + s.tkcnt.toNat * 2 ^ 64 + a.ltn * 2 ^ 96)
    let full := decide (4096 ≤ q.rlog.length)
    s.setQuay (s.homeQuay key)
      { q with rlog := (if full then q.rlog.drop 1 else q.rlog) ++ [e], rlhead := q.rlhead + 1,
               rldrop := if full then satInc q.rldrop 1 else q.rldrop }

/-! ### The sectors that a tile and a spur hold (R283, R307) -/

/-- Whether a scope's releases and acquires reach a sector: those narrower than `.sys` do not reach UN pages (R282). -/
def Sector.scoped (sc : Scope) (c : Sector) : Bool := !c.un || sc == .sys

/-- The bytes of a sector that a cache holds over those on their way out of it: which they are, and the bytes. -/
def heldBytes (c w : Option Sector) : BitVec 32 × BitVec 256 :=
  let base : BitVec 32 × BitVec 256 := match w with
    | some w => (w.dirty, w.data)
    | none => (0, 0)
  match c with
  | some c => (c.have_ ||| base.1, mergeBytes c.have_ c.data base.2)
  | none => base

/-- The sector of a number on its way out of a cache. -/
def leaving (ws : List WriteBack) (sec : Nat) : Option Sector := (ws.find? fun w => w.sector.key == sec).map fun w => w.sector

/-- The bytes of a sector that a tile holds. -/
def Tile.holdsOf (x : Tile) (sec : Nat) : BitVec 32 × BitVec 256 :=
  heldBytes (x.tdc.find? fun c => c.key == sec) (leaving x.wb sec)

/-- Those of its bytes that the next level does not have yet. -/
def Tile.dirtyOf (x : Tile) (sec : Nat) : BitVec 32 × BitVec 256 :=
  heldBytes ((x.tdc.find? fun c => c.key == sec).map fun c => { c with have_ := c.dirty }) (leaving x.wb sec)

/-- The bytes of a sector that a spur cache holds. -/
def Spur.holdsOf (y : Spur) (sec : Nat) : BitVec 32 × BitVec 256 :=
  heldBytes (y.sectors.find? fun c => c.key == sec) (leaving (y.wb.map fun w => w.2) sec)

/-- The tile of spur `sp` that holds the slice of a sector: PA[9:6] (R307). -/
def sliceTile (sp sec : Nat) : Nat := (spurTiles sp).getD (sec / 2 % 16) 0

/-- The sectors that a slice has room for beside the publications that its spur retains (R262, R307). -/
def Spur.sliceRoom (y : Spur) : Nat := (32768 - (y.retained.map fun r => r.payload.length).sum) / 16

/-- The lock of a granule at the level that serves a cached access of tile `t` (R320). -/
def State.lockSeen (s : State) (t gran : Nat) : BitVec 4 :=
  let of (cs : List Sector) : Option (BitVec 4) := (cs.find? fun y => y.key == gran).bind fun y => y.lock
  match of (s.tile t).tdc with
  | some l => l
  | none => match of (s.spur (spurOf t)).sectors with
    | some l => l
    | none => s.lockAt gran

/-! ### Divergence (R146) -/

/-- Record 0x1C for each replicated sector of the job that has diverged, and the bits cleared: what a FENCE.wafer or
FENCE.sys does as it completes (R146, R360): the page in replica 0, and the sector there (log entry 23). -/
def State.postDivergence (s : State) (t : Nat) (b : Fin 5) : State :=
  let j := (s.tile t).job
  let mine := s.diverged.filter fun kv => kv.2.1 == j
  let s := { s with diverged := s.diverged.filter fun kv => kv.2.1 != j }
  mine.foldl (fun s kv =>
    s.postJob j.toNat { s.jobRec t 0x1C with berth := b.val, w4 := BitVec.ofNat 64 kv.2.2,
                                              w5 := BitVec.ofNat 64 (32 * kv.1) }) s

end Sys2Proof.Machine
end

