-- ==== Sys2Proof/Machine/Xlate.lean ====
section
/-!
DEFINITION. Machine/Xlate.lean: effective addresses (R298, R299), page-table walks (R310, R311) and the tile's TLB
(R312).
-/
namespace Sys2Proof.Machine

/-! ### Leaf entries (R310) -/

/-- KIND: 0 RC, 1 SO, 2 UN. -/
def leafKind (e : Word) : Nat := wbits e 4 3
/-- W. -/
def leafW (e : Word) : Bool := wbit e 2
/-- MSIDE. -/
def leafMside (e : Word) : Bool := wbit e 6
/-- TCHK. -/
def leafTchk (e : Word) : Bool := wbit e 7
/-- RPL. -/
def leafRpl (e : Word) : Bool := wbit e 8
/-- MIG. -/
def leafMig (e : Word) : Bool := wbit e 10
/-- REM. -/
def leafRem (e : Word) : Bool := wbit e 11
/-- The physical address of a leaf entry's page. -/
def leafBase (e : Word) : Nat := (if wbit e 5 then 2 ^ 43 else 0) + wbits e 42 16 * 65536

/-- Whether a leaf entry maps a page of another module. -/
def State.awayLeaf (s : State) (e : Word) : Bool := leafRem e && wbits e 62 44 != s.modid.toNat

/-- The physical key of an address on a module: those of another module's pages lie above bit 44. -/
def State.physKey (s : State) (e : Word) (pa : Nat) : Nat := if s.awayLeaf e then (wbits e 62 44 + 1) * 2 ^ 44 + pa else pa

/-- A replicated page's address in replica `k` (R303). -/
def replicaPa (pa k : Nat) : Nat := pa % 2 ^ 39 + k % 4 * 2 ^ 39 + pa / 2 ^ 41 * 2 ^ 41

/-- Whether the address that a leaf entry gives is populated: on this module in its channel too (R300, R306). -/
def State.leafReaches (s : State) (e : Word) (pa : Nat) : Bool := if s.awayLeaf e then populated pa else s.reachable pa

/-! ### The walk -/

/-- How a walk ends: at a leaf of a page of 2^bits bytes, with a fault, or at a table that no memory holds. -/
inductive WalkRes
  | leaf (e : Word) (bits : Nat)
  | fault (level cause : Nat)
  | hole (pa : Nat)
  deriving DecidableEq, Repr

/-- log2 of the page that a leaf of a level maps. -/
def levelBits (level : Nat) : Nat := if level = 2 then 30 else if level = 3 then 21 else 16

/-- The level of a page of 2^bits bytes. -/
def bitsLevel (bits : Nat) : Nat := if bits = 30 then 2 else if bits = 21 then 3 else 4

/-- The index into a level's table (R310). -/
def walkIndex (level va : Nat) : Nat :=
  match level with
  | 0 => bits va 55 48
  | 1 => bits va 47 39
  | 2 => bits va 38 30
  | 3 => bits va 29 21
  | _ => bits va 20 16

/-- Whether a leaf entry sets a reserved bit (R310). -/
def leafReserved (e : Word) (level : Nat) : Bool :=
  wbit e 63 || wbit e 43 || wbits e 15 12 != 0 || (!leafRem e && wbits e 62 44 != 0)
    || (decide (2 ≤ level) && wbits e 42 16 % 2 ^ (levelBits level - 16) != 0)

/-- Whether a table entry that is not a leaf sets a reserved bit, or names a table that is not aligned to its size. -/
def tableReserved (e : Word) (level : Nat) : Bool :=
  wbits e 63 44 != 0 || wbits e 7 2 != 0 || (decide (level < 3) && wbits e 11 8 != 0)

/-- A walk from a level down, `n` levels being left (R310, R311). -/
def State.walkFrom (s : State) (va : Nat) : Nat → Nat → Nat → WalkRes
  | 0, level, _ => .fault level 2
  | n + 1, level, table =>
    let pa := table + 8 * walkIndex level va
    if !populatedRun pa 8 then .hole pa
    else
      let e := s.pw pa
      if !wbit e 0 then .fault level 0
      else if wbit e 1 then
        if leafReserved e level then .fault level 1
        else if level < 2 then .fault level 2
        else if (!wbit e 5 && decide (2 ^ 25 ≤ wbits e 42 16))
            || !s.leafReaches e (leafBase e + va % 2 ^ levelBits level) then .fault level 3
        else if leafKind e = 3 || (wbit e 5 && (leafRpl e || leafTchk e)) || (leafRpl e && leafRem e)
            || (wbit e 9 && leafMig e) then .fault level 4
        else .leaf e (levelBits level)
      else if tableReserved e level then .fault level 1
      else if level = 4 then .fault level 2
      else s.walkFrom va n (level + 1) (wbits e 43 8 * 256)

/-- The walk of a job's virtual address. -/
def State.walk (s : State) (job : Nat) (va : Nat) : WalkRes := s.walkFrom va 5 0 (s.job job).ptroot.toNat

/-! ### The TLB (R312) -/

/-- Whether a held translation is that of an address of a job. -/
def TlbEnt.covers (e : TlbEnt) (job : BitVec 12) (va : Nat) : Bool := e.job == job && e.page == va / 2 ^ e.bits

/-- The physical address that a held translation gives. -/
def TlbEnt.pa (e : TlbEnt) (va : Nat) : Nat := leafBase e.leaf + va % 2 ^ e.bits

/-- How a virtual address translates. -/
inductive Xlate
  /-- The leaf entry, the physical address, and log2 of the page size. -/
  | hit (e : Word) (pa bits : Nat)
  | fault (level cause : Nat)
  /-- A walk directed to a table that no memory holds. -/
  | hole (pa : Nat)
  deriving DecidableEq, Repr

/-- The TLB entry of a virtual address of a tile's job. -/
def Tile.tlbFind (x : Tile) (va : Nat) : Option TlbEnt := x.tlb.find? fun e => e.covers x.job va

/-- The translation by which an access is checked (R131): that of the TLB, or the one that its walk finds. -/
def State.translate (s : State) (t va : Nat) : Xlate :=
  match (s.tile t).tlbFind va with
  | some e =>
    let pa := e.pa va
    if s.leafReaches e.leaf pa then .hit e.leaf pa e.bits else .fault (bitsLevel e.bits) 3
  | none => match s.walk (s.tile t).job.toNat va with
    | .leaf e b => .hit e (leafBase e + va % 2 ^ b) b
    | .fault l k => .fault l k
    | .hole pa => .hole pa

/-- The translation by which an access is performed: that of the TLB. Without one, and for an access that needs W on a page in migration,
it waits for a walk (R312, R317). -/
def State.translated (s : State) (t va : Nat) (write : Bool) : Option TlbEnt :=
  match (s.tile t).tlbFind va with
  | some e => if write && leafMig e.leaf then none else some e
  | none => none

/-- The translation miss of a virtual address at a tile. -/
def Tile.missOf (x : Tile) (va : Nat) (write : Bool) : XMiss := { job := x.job, vpage := va / 65536, write }

/-- A miss recorded at its tile, to be sent on (R312). -/
def Tile.addMiss (x : Tile) (m : XMiss) : Tile :=
  if x.misses.any fun k => k.m == m then x else { x with misses := x.misses ++ [{ m }] }

/-- A translation put in a TLB of 64 entries (R312); the oldest entry is replaced (log entry 9). -/
def Tile.tlbPut (x : Tile) (e : TlbEnt) : Tile :=
  { x with tlb := (e :: x.tlb.filter fun y => !(y.job == e.job && y.page == e.page && y.bits == e.bits)).take 64 }

/-! ### Effective addresses (R298, R299) -/

/-- The virtual address of an effective address. -/
def eaVa (ea : Word) : Nat := wbits ea 55 0
/-- Whether an effective address lies in the window region (R299). -/
def eaWindow (ea : Word) : Bool := decide (wbase ≤ eaVa ea) && decide (eaVa ea < wbase + 2 ^ 30)
/-- The window offset of an address in the window region. -/
def eaOff (ea : Word) : Nat := eaVa ea - wbase

/-- The window offset of an address whose `n` bytes lie wholly in the scratchpad; none otherwise. -/
def windowRun (a : Word) (n : Nat) : Option Nat :=
  if wbits a 63 60 = 0 && eaWindow a && decide (eaOff a + n ≤ padSize) then some (eaOff a) else none

end Sys2Proof.Machine
end

