-- ==== Sys2Proof/Machine/Transact.lean ====
section
/-!
DEFINITION. Machine/Transact.lean: memory transactions as tiles, slices and quays send them (R377, R381), write-backs and fills of the tile
data cache (R283, R307), and the order of a berth's outstanding accesses (R284).
-/
namespace Sys2Proof.Machine

/-! ### Sending (R377, R381) -/

/-- A memory transaction that a tile sends: it stands at the tile's own router. -/
def State.sendMem (s : State) (t : Nat) (dest : BitVec 17) (job : BitVec 12) (vc : BitVec 2) (m : MemTx) (pl : List (BitVec 256)) : State :=
  { s with packets := s.packets ++ [{ mt := some m, dest, orig := BitVec.ofNat 17 t, dmod := s.modid, omod := s.modid, job, vc,
                                      payload := pl, place := .router (hostTile t) }] }

/-- A memory transaction that a quay sends. -/
def State.sendQuay (s : State) (q : Nat) (dest : BitVec 17) (job : BitVec 12) (vc : BitVec 2) (m : MemTx) (pl : List (BitVec 256)) : State :=
  { s with packets := s.packets ++ [{ mt := some m, dest, orig := BitVec.ofNat 17 (quayCode q), dmod := s.modid, omod := s.modid, job, vc,
                                      payload := pl, place := .router (s.quayGate q dest), inp := (quayRim q).2 }] }

/-- The next transaction identifier of a tile. -/
def State.takeTid (s : State) (t : Nat) : State × BitVec 20 :=
  let x := s.tile t
  (s.setTile t { x with nextTid := x.nextTid + 1 }, x.nextTid)

/-- Where accesses to a physical key go that bypass the spur cache: its home quay. -/
def State.homeCode (s : State) (key : Nat) : BitVec 17 := BitVec.ofNat 17 (quayCode (s.homeQuay key))

/-- Whether a tile holds its spur-cache slice: it has power (R39, R434). -/
def State.sliceLive (s : State) (u : Nat) : Bool := (s.tile u).powered && !(s.tile u).retired

/-- Where a cached access of tile `t` to a sector goes: the slice of its spur, or the home while no tile holds that slice (log entry 65). -/
def State.nextLevel (s : State) (t sec : Nat) : BitVec 17 :=
  let u := sliceTile (spurOf t) sec
  if s.sliceLive u then BitVec.ofNat 17 u else s.homeCode (32 * sec)

/-! ### The tile data cache (R283, R307) -/

/-- The sectors that an outstanding access touches. -/
def MemOp.sectors (o : MemOp) : List Nat := if o.n = 0 then [] else (List.range ((o.key + o.n - 1) / 32 + 1 - o.key / 32)).map (o.key / 32 + ·)

/-- Whether an access is a read that has been sent. -/
def MemOp.reading (o : MemOp) : Bool :=
  o.phase == .sent && (match o.what with
    | .load | .pref => true
    | _ => false)

/-- The tile with its reads in flight of chosen sectors marked as overtaken. -/
def Tile.overtake (x : Tile) (p : Nat → Bool) : Tile :=
  { x with ops := x.ops.map fun o => if o.reading && o.sectors.any p then { o with stale := true } else o
           fetches := x.fetches.map fun f =>
             if f.data.isNone && (List.range f.n).any (fun i => p (f.sec + i)) then { f with stale := true } else f }

/-- What an engine holds of a sector, with bytes of it put over. -/
def Fetch.patch (f : Fetch) (c : Sector) : Fetch :=
  match f.data with
  | some ds =>
    if f.sec ≤ c.key ∧ c.key < f.sec + f.n then
      { f with data := some (ds.modify (c.key - f.sec) fun d => mergeBytes c.dirty c.data d) }
    else f
  | none => f

/-- The dirty bytes of a sector leave tile `t` for the next level: they stay readable there until they are acknowledged, and reads of the
sector that are in flight are overtaken. -/
def State.sendBack (s : State) (t : Nat) (c : Sector) : State :=
  if c.dirty = 0 then s
  else
    let (s, tid) := s.takeTid t
    let x := (s.tile t).overtake (· == c.key)
    let c := { c with have_ := c.dirty }
    let s := s.setTile t { x with wb := x.wb ++ [{ tid, sector := c }], fetches := x.fetches.map fun f => f.patch c }
    s.sendMem t (s.nextLevel t c.key) x.job 2 { mkind := 2, tid, key := 32 * c.key, n := 1, mask := c.dirty, un := c.un } [c.data]

/-- Whether a sector is on its way out of a tile. -/
def Tile.leaves (x : Tile) (sec : Nat) : Bool := (leaving x.wb sec).isSome

/-- The line that leaves an overfull set: the least recently used one whose dirty sectors can be written back (R307; the set of a line is
its number modulo 32, log entry 8). -/
def Tile.victim (x : Tile) (set : Nat) : Option Nat :=
  let lines := ((x.tdc.filter fun c => c.key / 4 % 32 == set).map fun c => c.key / 4).eraseDups
  if lines.length ≤ 8 then none
  else lines.reverse.find? fun l => !x.tdc.any fun c => c.key / 4 == l && c.dirty != 0 && x.leaves c.key

/-- A sector of the tile data cache becomes the most recently used (R307). -/
def Tile.touchTdc (x : Tile) (sec : Nat) : Tile :=
  match x.tdc.find? fun c => c.key == sec with
  | some c => { x with tdc := c :: x.tdc.filter fun z => z.key != sec }
  | none => x

/-- A sector placed in the tile data cache as the most recently used, a line being evicted when its set is full (R307). -/
def State.tdcPut (s : State) (t : Nat) (c : Sector) : State :=
  let x := s.tile t
  let s := s.setTile t { x with tdc := c :: x.tdc.filter fun z => z.key != c.key }
  match (s.tile t).victim (c.key / 4 % 32) with
  | none => s
  | some line =>
    let out := (s.tile t).tdc.filter fun z => z.key / 4 == line
    let s := s.setTile t { s.tile t with tdc := (s.tile t).tdc.filter fun z => z.key / 4 != line }
    out.foldl (fun s z => s.sendBack t z) s

/-- A sector that has come for tile `t` placed beneath the bytes that the tile holds of it (R307). -/
def State.tdcFill (s : State) (t sec : Nat) (d : BitVec 256) (lock : BitVec 4) (un : Bool) : State :=
  let x := s.tile t
  let (m, held) := x.holdsOf sec
  let dirty := match x.tdc.find? fun c => c.key == sec with
    | some c => c.dirty
    | none => 0
  s.tdcPut t { key := sec, data := mergeBytes m held d, have_ := BitVec.allOnes 32, dirty, lock := some lock, un }

/-- Bytes stored into the tile data cache: a sector that misses is allocated without a read (R307). -/
def State.tdcStore (s : State) (t sec : Nat) (mask : BitVec 32) (data : BitVec 256) (un : Bool) : State :=
  let s := s.charge (fieldOf t) 8 (s.tile t).job.toNat 1
  match (s.tile t).tdc.find? fun y => y.key == sec with
  | some y =>
    s.tdcPut t { y with data := mergeBytes mask data y.data, have_ := y.have_ ||| mask, dirty := y.dirty ||| mask, un }
  | none => s.tdcPut t { key := sec, data := data &&& expandMask mask, have_ := mask, dirty := mask, lock := none, un }

/-- Dirty bytes of chosen sectors sent to the next level, but for sectors that are on their way already; the copies stay valid. -/
def State.cleanTdc (s : State) (t : Nat) (p : Sector → Bool) : State :=
  let go (x : Tile) (c : Sector) : Bool := p c && c.dirty != 0 && !x.leaves c.key
  let x := s.tile t
  let out := x.tdc.filter (go x)
  out.foldl (fun s c => s.sendBack t c) (s.setTile t { x with tdc := x.tdc.map fun c => if go x c then { c with dirty := 0 } else c })

/-- Whether chosen sectors have dirty bytes in a tile or on their way out of it. -/
def Tile.unclean (x : Tile) (p : Sector → Bool) : Bool := x.tdc.any (fun c => p c && c.dirty != 0) || x.wb.any fun w => p w.sector

/-- Clean bytes of chosen sectors dropped from a tile data cache; a dirty byte stays (R283). -/
def State.dropTdc (s : State) (t : Nat) (p : Sector → Bool) : State :=
  let x := s.tile t
  let x := x.overtake fun k => p { key := k, data := 0, have_ := 0, dirty := 0, lock := none }
  s.setTile t { x with tdc := x.tdc.filterMap (Sector.dropClean p) }

/-- Clean bytes of chosen sectors dropped from tile `t`'s spur cache. -/
def State.dropSpur (s : State) (t : Nat) (p : Sector → Bool) : State :=
  let y := s.spur (spurOf t)
  s.setSpur (spurOf t) { y with sectors := y.sectors.filterMap (Sector.dropClean p), reads := y.reads.map fun r => { r with stale := true } }

/-- The invalidation of an acquire or an INVAL of scope `sc` over chosen sectors: the tile's copies, and those in the slices of its spur at
once (R141, R280; log entry 65). -/
def State.dropScope (s : State) (t : Nat) (sc : Scope) (p : Sector → Bool) : State :=
  let s := if sc.tdcLevel then s.dropTdc t p else s
  let s := if sc.spurLevel then s.dropSpur t p else s
  if sc = .sys then s.dropRemote else s

/-- The copies of one sector dropped, for an access performed at its home (R145, R148, R320). -/
def State.forget (s : State) (t sec : Nat) : State := (s.dropTdc t fun c => c.key == sec).dropSpur t fun c => c.key == sec

/-- An acquire of scope `sc` by berth `b` (R138, R139, R280, R282). -/
def State.acquire (s : State) (t : Nat) (b : Fin 5) (sc : Scope) : State :=
  let s := s.dropScope t sc (Sector.scoped sc)
  let x := (s.tile t).joinOwn b
  s.setTile t (if sc = .berth then x else x.acquireMarks b)

/-- What a release of scope `sc` by berth `b` does at the scratchpad port (R138). -/
def State.releaseViews (s : State) (t : Nat) (b : Fin 5) (sc : Scope) : State :=
  let x := (s.tile t).joinOwn b
  s.setTile t (if sc = .berth then x else x.releaseMarks b)

/-! ### The order of outstanding accesses (R133, R139, R140, R282, R284) -/

/-- Whether a page's accesses bypass the caches: SO and memory-side pages (R133, R307, R309). -/
def bypasses (e : Word) : Bool := leafKind e == 1 || leafMside e

/-- A store to a replicated page sets the divergence bit of its sector (R146). -/
def State.diverge (s : State) (t : Nat) (leaf : Word) (key : Nat) : State :=
  if leafRpl leaf then
    { s with diverged := s.diverged.put (replicaPa key 0 / 32) ((s.tile t).job, replicaPa (leafBase leaf) 0) }
  else s

/-- Bytes stored by a cached store from a physical key up, within one sector (R146, R307). -/
def State.storeCached (s : State) (t : Nat) (leaf : Word) (key : Nat) (bs : List Byte) : State :=
  let (m, d) := sectorPut (key % 32) bs
  (s.diverge t leaf key).tdcStore t (key / 32) m d (leafKind leaf == 2)

/-- Whether an outstanding operation is an access to bytes, PREF apart. -/
def MemOp.access (o : MemOp) : Bool :=
  match o.what with
  | .fence | .release | .arrive _ | .clean _ _ | .pref => false
  | _ => true

/-- Whether an outstanding operation names bytes: an access, a FLUSH or an INVAL. -/
def MemOp.spans (o : MemOp) : Bool :=
  o.access || (match o.what with
    | .clean _ _ => true
    | _ => false)

/-- Whether two operations name a common byte. -/
def MemOp.meets (a b : MemOp) : Bool :=
  a.spans && b.spans && a.win == b.win && decide (a.key < b.key + b.n) && decide (b.key < a.key + a.n)

/-- Whether an ordering of a scope binds an access: one narrower than `.sys` does not bind UN pages (R282). -/
def MemOp.boundBy (o : MemOp) (sc : Scope) : Bool := o.win || !o.access || leafKind o.leaf != 2 || sc == .sys

/-- Whether `a`, earlier in program order, is ordered before `b` of the same berth or macro (R284). -/
def MemOp.before (a b : MemOp) : Bool :=
  a.what != .pref && b.what != .pref &&
    ((match b.rel with
      | some sc => a.boundBy sc
      | none => false)
    || (match a.acq with
      | some sc => b.boundBy sc
      | none => false)
    || (a.access && b.access && !a.win && !b.win && leafKind a.leaf == 1 && leafKind b.leaf == 1)
    || a.meets b)

/-- Whether the first `k` outstanding operations of a tile leave operation `o` free to start. -/
def Tile.ready (x : Tile) (k : Nat) (o : MemOp) : Bool :=
  !(x.ops.take k).any fun a => a.b == o.b && a.mac == o.mac && a.before o

/-- Whether an outstanding operation of a berth holds its later L and N slots (R139 to R141): a fence, a flush, an acquire; and an access to
the window that waits for a release, which a later access must find performed (log entry 65). -/
def MemOp.holds (o : MemOp) : Bool :=
  o.mac.isNone && (o.acq.isSome || (o.win && o.access) || (match o.what with
    | .fence | .clean _ _ => true
    | _ => false))

/-- Whether a berth's later L and N slots wait for an outstanding operation. -/
def Tile.ordered (x : Tile) (b : Fin 5) : Bool := x.ops.any fun o => o.b == b && o.holds

/-- Whether a berth has a release outstanding, for which its PUB, SEND, FSLOT and SPAWN wait (R292). -/
def Tile.releasing (x : Tile) (b : Fin 5) : Bool := x.ops.any fun o => o.b == b && o.mac.isNone && o.rel.isSome

/-- Whether a berth has slots' accesses outstanding that were issued before an identity was taken. -/
def Tile.owes (x : Tile) (b : Fin 5) (upto : Nat) : Bool := x.ops.any fun o => o.b == b && o.mac.isNone && decide (o.id < upto)

/-- An outstanding operation entered. -/
def State.pushOp (s : State) (t : Nat) (o : MemOp) : State :=
  let x := s.tile t
  s.setTile t { x with ops := x.ops ++ [o] }

/-- The tile with the release outstanding that a save or a trap of berth `b` makes of its earlier accesses (R295). -/
def Tile.withRelease (x : Tile) (b : Fin 5) (id : Nat) (sc : Scope) : Tile :=
  { x with ops := x.ops ++ [{ id, b, bind := x.berths[b].bind, what := .release, rel := some sc }] }

/-- A release of a berth's earlier accesses entered (R295). -/
def State.pushRelease (s : State) (t : Nat) (b : Fin 5) (sc : Scope) : State :=
  { s.setTile t ((s.tile t).withRelease b s.uid sc) with uid := s.uid + 1 }

end Sys2Proof.Machine
end

