-- ==== Sys2Proof/Machine/MacroBase.lean ====
section
/-!
DEFINITION. Machine/MacroBase.lean: handles (R169, R170), the formats of macros (R97, R99, R178), descriptors and operand
words (R176, R177), the ranges that a macro reads and writes (R174), and the engines' queues (R167).
-/
namespace Sys2Proof.Machine

/-! ### Handles (R169, R170) -/

/-- The STATE codes of R169. -/
def HState.code : HState → Nat
  | .idle => 0
  | .queued => 1
  | .running => 2
  | .done => 3
  | .suspended => 4
  | .faulted => 5
  | .stopped => 6
  | .killed => 7
/-- The state of a code. -/
def HState.ofCode (c : Nat) : HState :=
  match c with
  | 1 => .queued
  | 2 => .running
  | 3 => .done
  | 4 => .suspended
  | 5 => .faulted
  | 6 => .stopped
  | 7 => .killed
  | _ => .idle

/-- QUEUED or RUNNING. -/
def Handle.active (h : Handle) : Bool := h.st = .queued || h.st = .running
/-- SUSPENDED, FAULTED or STOPPED. -/
def Handle.resumable (h : Handle) : Bool := h.st = .suspended || h.st = .faulted || h.st = .stopped

/-- The status register (R169). -/
def Handle.status (h : Handle) : Word :=
  BitVec.ofNat 64 (h.xtag.toNat * 2 ^ 48 + h.op.toNat * 2 ^ 32 + h.eng.toNat * 2 ^ 29 + h.code.toNat * 2 ^ 25
    + h.st.code * 2 ^ 16 + h.flags.toNat)

/-- The progress register (R170). -/
def Handle.progress (h : Handle) : Word := h.total ++ h.prog

/-- Whether a macro reads or writes the berth's z tiles: TMM, TSPZ, TDR, TZ (R173). -/
def Handle.usesZ (h : Handle) : Bool := h.op = 1 || h.op = 4 || h.op = 5 || h.op = 6

/-! ### Formats (R97, R99, R178) -/

/-- The format of a macro. -/
structure Fmt where
  /-- 0 BF16, 1 FP16, 2 FP32, 3 bit-plane. -/
  typ : Nat
  /-- Planes to read. -/
  planes : Nat := 0
  rnd : Bool := false
  packed : Bool := false
  /-- NSP. -/
  nsp : Nat := 0
  deriving DecidableEq, Repr

/-- The format of an FMT entry (R97). -/
def Fmt.ofEntry (w : Word) : Fmt :=
  { typ := wbits w 1 0, planes := wbits w 5 2, rnd := wbit w 6, packed := wbit w 7, nsp := wbits w 10 8 }

/-- The format that a variant selects; `.ft` and `.f0` take the entry copied at issue (R63, R99). -/
def Fmt.ofVariant (v : BitVec 3) (entry : Word) : Fmt :=
  if v.toNat < 3 then { typ := v.toNat } else Fmt.ofEntry entry

/-- Whether a format is bit-plane. -/
def Fmt.plane (f : Fmt) : Bool := f.typ == 3
/-- The width in bytes of a floating element. -/
def Fmt.bytes (f : Fmt) : Nat := if f.typ = 2 then 4 else 2
/-- The floating format. -/
def Fmt.float (f : Fmt) : FloatFmt := if f.typ = 0 then bf16 else if f.typ = 1 then fp16 else fp32
/-- G (R101). -/
def Fmt.group (f : Fmt) : Nat := if f.typ = 2 then 8 else 32
/-- Kmax (R178). -/
def Fmt.kmax (f : Fmt) : Nat :=
  match f.typ with
  | 2 => 8
  | 3 => if 5 ≤ f.planes then 128 else if 3 ≤ f.planes then 256 else 512
  | _ => 32
/-- The planes that a read touches: j, and one more for rounding (R94). -/
def Fmt.touched (f : Fmt) : Nat := if f.rnd then min 8 (f.planes + 1) else f.planes

/-- Whether a dense K is within R178. -/
def Fmt.denseK (f : Fmt) (k : Nat) : Bool :=
  if f.plane then decide (0 < k) && k % 64 == 0 && decide (k ≤ f.kmax) else decide (0 < k) && decide (k ≤ f.kmax)

/-- The stored values of a column of K logical elements (R178). -/
def storedCount (nsp k : Nat) : Nat := if nsp = 0 then k else nspN nsp * (k / 12)

/-- Whether K is within R178 for weights of a sparsity. -/
def Fmt.weightK (f : Fmt) (nsp k : Nat) : Bool :=
  if nsp = 0 then f.denseK k
  else decide (0 < k) && k % 12 == 0 && decide (storedCount nsp k ≤ f.kmax) &&
    (!f.plane || storedCount nsp k % 64 == 0)

/-! ### Descriptors (R176, R177) -/

/-- Word `i` of a 64-byte descriptor. -/
def descWord (d : BitVec 512) (i : Nat) : Word := d.extractLsb' (64 * i) 64
/-- Word `i` of a handle's descriptor. -/
def Handle.word (h : Handle) (i : Nat) : Word := descWord h.desc i
/-- The format of a handle's macro. -/
def Handle.format (h : Handle) : Fmt := Fmt.ofVariant h.variant h.fmt
/-- START. -/
def Handle.start (h : Handle) : Nat := wbits (h.word 0) 31 0
/-- ZSEL. -/
def Handle.zsel (h : Handle) : BitVec 2 := (h.word 0).extractLsb' 34 2

/-- BASE of an operand word (R177). -/
def opBase (w : Word) : Nat := wbits w 18 0
/-- HDR. -/
def opHdr (w : Word) : Nat := wbits w 37 19
/-- RSTR. -/
def opRstr (w : Word) : Nat := wbits w 50 38
/-- PSTR. -/
def opPstr (w : Word) : Nat := wbits w 63 51

/-- The element size of a variant (R63). -/
def elemSize (v : BitVec 3) : Nat :=
  match v.toNat with
  | 0 => 1
  | 1 => 2
  | 2 => 4
  | 3 => 8
  | 4 => 16
  | _ => 64

/-! ### Ranges (R174) -/

/-- A window range. -/
def winRange (lo n : Nat) : Range := { win := true, lo, hi := lo + n }

/-- The ranges that span a matrix operand of `lines` lines of `k` elements (R176, R177). -/
def operandSpan (f : Fmt) (w : Word) (lines k : Nat) : List Range :=
  if lines = 0 || k = 0 then []
  else if f.plane then
    let nb := lines * (k / 64)
    if f.packed then [winRange (opBase w) (64 * nb)]
    else [winRange (opHdr w) (2 * nb), winRange (opBase w) (8 * opPstr w * (f.touched - 1) + 8 * nb)]
  else [winRange (opBase w) (64 * (lines - 1) * opRstr w + f.bytes * k)]

/-- The runs of window bytes of a matrix operand, offset and length: its lines, or its headers and its planes (R174, R177). -/
def operandRuns (f : Fmt) (w : Word) (lines k : Nat) : List (Nat × Nat) :=
  if lines = 0 || k = 0 then []
  else if f.plane then
    let nb := lines * (k / 64)
    if f.packed then [(opBase w, 64 * nb)]
    else (opHdr w, 2 * nb) :: (List.range f.touched).map fun p => (opBase w + 8 * opPstr w * p, 8 * nb)
  else (List.range lines).map fun i => (opBase w + 64 * i * opRstr w, f.bytes * k)

/-- The same as ranges. -/
def operandRanges (f : Fmt) (w : Word) (lines k : Nat) : List Range := (operandRuns f w lines k).map fun r => winRange r.1 r.2

/-- The runs of bytes that the weights of a TLW descriptor occupy. -/
def weightRuns (f : Fmt) (d : BitVec 512) : List (Nat × Nat) :=
  operandRuns f (descWord d 1) 16 (storedCount (wbits (descWord d 2) 12 10) (wbits (descWord d 2) 9 0))

/-- The lowest window offset of a list of runs. -/
def lowestOff : List (Nat × Nat) → Nat
  | [] => 0
  | [r] => r.1
  | r :: rs => min r.1 (lowestOff rs)

/-- The range of `n` bytes from a pointer: window offsets in the window, virtual addresses elsewhere. -/
def ptrRange (a : Word) (n : Nat) : Range :=
  if eaWindow a then winRange (eaOff a) n else { win := false, lo := eaVa a, hi := eaVa a + n }

/-- The ranges of rows of `n` bytes at a signed stride. -/
def stridedRanges (a : Word) (stride rows n : Nat) : List Range :=
  (List.range rows).map fun r => ptrRange (a + BitVec.ofInt 64 ((r : Int) * toSigned 32 stride)) n

/-- The ranges of the weights that a TLW descriptor names, and of the descriptor (R179). -/
def tlwRanges (f : Fmt) (d : BitVec 512) : List Range :=
  let k := wbits (descWord d 2) 9 0
  let nsp := wbits (descWord d 2) 12 10
  operandRanges f (descWord d 1) 16 (storedCount nsp k)
    ++ (if nsp = 0 then [] else [winRange (wbits (descWord d 3) 18 0) (2 * 16 * (k / 12))])

/-- The 64 bytes of a descriptor at a window offset. -/
def Tile.descAt (x : Tile) (off : Nat) : BitVec 512 := BitVec.ofNat 512 (leNat (x.padBytes off 64))

/-- The global sources of the experts that a TMMG's tags name, as the layouts of its buffer entries place them: the byte at GW + t × XSTR is
that of the operand's lowest window offset (R185; log entry 53). -/
def Tile.expertRanges (x : Tile) (h : Handle) (descs : List (BitVec 512)) : List Range :=
  let w := h.word
  if w 6 = 0 then []
  else
    let tags := ((List.range (wbits (w 2) 15 0)).map fun r => leNat (x.padBytes (wbits (w 3) 18 0 + 2 * r) 2)).eraseDups
    (tags.filter fun v => v != 0xFFFF).flatMap fun v => descs.flatMap fun d =>
      let runs := weightRuns h.format d
      runs.map fun r =>
        ptrRange (w 6 + BitVec.ofNat 64 (v * wbits (w 7) 31 0) + BitVec.ofNat 64 (r.1 - lowestOff runs)) r.2

/-- Every contiguous range that a macro reads or writes, its address-indexed side apart (R174). -/
def Tile.macroRanges (x : Tile) (h : Handle) : List Range :=
  let w := h.word
  let f := h.format
  let self := winRange h.daddr.toNat 64
  let sz := elemSize h.variant
  match h.op.toNat with
  | 0 => self :: tlwRanges f h.desc
  | 1 | 4 =>
    let wd := wbits (w 3) 18 0
    self :: winRange wd 64 :: (operandRanges f (w 1) (wbits (w 2) 5 0) (wbits (w 2) 15 6) ++ tlwRanges f (x.descAt wd))
  | 2 =>
    let m := wbits (w 2) 15 0
    let nbuf := wbits (w 2) 29 26 + 1
    let buft := wbits (w 4) 18 0
    let entries := (List.range nbuf).map fun i => wbits (x.padWord (buft + 8 * i)) 36 18
    self :: winRange (wbits (w 3) 18 0) (2 * m) :: winRange buft (8 * nbuf)
      :: ((List.range m).map (fun r => winRange (wbits (w 5) 18 0 + 64 * r * wbits (w 5) 31 19) 64)
          ++ operandRanges f (w 1) m (wbits (w 2) 25 16)
          ++ (entries.flatMap fun wd => winRange wd 64 :: tlwRanges f (x.descAt wd))
          ++ x.expertRanges h (entries.map x.descAt))
  | 3 =>
    let m := wbits (w 2) 15 0
    self :: (operandRanges f (w 1) m (wbits (w 2) 22 16)
      ++ (if wbit (w 3) 19 then [winRange (wbits (w 3) 18 0) (64 * m)] else [])
      ++ (if wbit (w 4) 19 then [winRange (wbits (w 4) 18 0) (8 * m)] else []))
  | 5 => self :: operandRanges f (w 1) (wbits (w 2) 5 0) 16
  | 8 =>
    let n := wbits (w 3) 31 0
    [self, ptrRange (w 1) (sz * n), winRange (wbits (w 4) 18 0) (4 * n)]
  | 9 =>
    let n := wbits (w 3) 31 0
    [self, ptrRange (w 2) (sz * n), winRange (wbits (w 4) 18 0) (4 * n)]
  | 10 =>
    let n := wbits (w 3) 31 0
    [self, ptrRange (w 1) (sz * n), ptrRange (w 2) (sz * n)]
  | 11 =>
    let nc := wbits (w 3) 31 0
    let nr := wbits (w 3) 63 32
    self :: (stridedRanges (w 1) (wbits (w 4) 31 0) nr (sz * nc) ++ stridedRanges (w 2) (wbits (w 4) 63 32) nr (sz * nc))
  | 12 => [self, ptrRange (w 1) (sz * wbits (w 3) 31 0)]
  | 28 =>
    let m := wbits (w 2) 15 0
    let k := wbits (w 2) 18 16 + 1
    [self, winRange (wbits (w 1) 18 0) (wbits (w 1) 33 19 * m), winRange (wbits (w 2) 37 19) (k * m)]
      ++ (if wbit (w 3) 19 then [winRange (wbits (w 3) 18 0) (4 * k * m)] else [])
  | 29 =>
    let nin := wbits (w 1) 34 19
    self :: winRange (wbits (w 2) 18 0) (4 * wbits (w 3) 12 0 * wbits (w 2) 34 19)
      :: (List.range nin).map fun i => winRange (wbits (w 1) 18 0 + 32 * wbits (w 1) 47 35 * i) (32 + 4 * wbits (w 3) 12 0)
  | _ => []

/-- Whether two ranges share a byte. -/
def Range.meets (a b : Range) : Bool := a.win == b.win && decide (a.lo < b.hi) && decide (b.lo < a.hi)

/-- Whether a range meets an entry of the scoreboard that a test admits (R134, R197). -/
def Tile.scoreHit (x : Tile) (p : ScoreEntry → Bool) (r : Range) : Bool :=
  x.score.any fun e => p e && e.ranges.any r.meets

/-! ### Queues (R167) -/

/-- The queue of an engine number (R169): 0 matrix, 1 gather/scatter, 2 to 5 copy 0 to 3, 6 egress. -/
def Tile.queue (x : Tile) (eng : Nat) : List QItem :=
  match eng with
  | 0 => x.qMatrix
  | 1 => x.qGather
  | 6 => x.qEgress
  | e => x.qCopy.getD (e - 2) []

/-- The tile with a queue replaced. -/
def Tile.setQueue (x : Tile) (eng : Nat) (q : List QItem) : Tile :=
  match eng with
  | 0 => { x with qMatrix := q }
  | 1 => { x with qGather := q }
  | 6 => { x with qEgress := q }
  | e => { x with qCopy := x.qCopy.setIfInBounds (e - 2) q }

/-- The depth of a queue (R167, R201). -/
def queueDepth (eng : Nat) : Nat := if eng = 0 || eng = 1 || eng = 6 then 16 else 32

/-- Whether an item is an operation of its queue: the messages that a STEER has staged are not (R211). -/
def QItem.counts : QItem → Bool
  | .msg m => m.head.isNone
  | _ => true

/-- Whether a queue is full. -/
def Tile.queueFull (x : Tile) (eng : Nat) : Bool := decide (queueDepth eng ≤ ((x.queue eng).filter QItem.counts).length)

/-- The engine of an operation: the copy queue of a copy is its QSEL (R167, R169). -/
def engineOf (op : BitVec 5) (desc : BitVec 512) : Nat :=
  match op.toNat with
  | 8 | 9 => 1
  | 10 | 11 | 12 => 2 + wbits (descWord desc 0) 33 32
  | 28 | 29 | 13 | 7 => 6
  | _ => 0

/-- The tile with a macro entered in its queue and on the scoreboard (R167, R174). -/
def Tile.enqueueMac (x : Tile) (h : Handle) : Tile :=
  let x := x.setQueue h.eng.toNat (x.queue h.eng.toNat ++ [.mac h.uid])
  let rs := x.macroRanges h
  if rs.isEmpty then x else { x with score := x.score ++ [{ owner := h.uid, mac := true, ranges := rs }] }

/-- The tile with a QFENCE entered in every queue that its mask names (R188). -/
def Tile.enqueueFence (x : Tile) (mask : BitVec 7) (uid : Nat) : Tile :=
  (List.range 7).foldl (fun x e => if mask.getLsbD e then x.setQueue e (x.queue e ++ [.fence uid]) else x) x

/-! ### Macros in queues -/

/-- Whether a queue item is the operation of an identity. -/
def QItem.isUid (u : Nat) : QItem → Bool
  | .mac v => u == v
  | .fence v => u == v
  | .msg _ => false

/-- The tile without an operation in its queues and scoreboard (R171). -/
def Tile.dropUid (x : Tile) (u : Nat) : Tile :=
  let f (q : List QItem) : List QItem := q.filter fun i => !i.isUid u
  { x with qMatrix := f x.qMatrix, qGather := f x.qGather, qCopy := x.qCopy.map f, qEgress := f x.qEgress,
           score := x.score.filter (fun e => !(e.owner == u && e.mac)), fetches := x.fetches.filter fun f => f.uid != u }

/-- The tile without what a macro fetched for elements below one. -/
def Tile.dropFetches (x : Tile) (u n : Nat) : Tile :=
  { x with fetches := x.fetches.filter fun f => f.uid != u || decide (n < f.till) }

/-- The handles of a berth with every QUEUED or RUNNING one put in a state. -/
def Berth.stopHandles (y : Berth) (st : HState) : Berth :=
  { y with handles := y.handles.map fun h => if h.active then { h with st } else h }

/-- A stop request to every macro on the handles of a berth (R171, R436). -/
def Tile.stopMacros (x : Tile) (b : Fin 5) (st : HState) : Tile :=
  let y := x.berths[b]
  let x := y.handles.toList.foldl (fun x h => if h.active then x.dropUid h.uid else x) x
  x.setBerth b (y.stopHandles st)

end Sys2Proof.Machine
end

