-- ==== Sys2Proof/Machine/Ops.lean ====
section
/-!
DEFINITION. Machine/Ops.lean: the named operations over berths: stopping macros (R171, R436), taking a trap (R350),
saving and restoring a berth (R352, R353, R366), ending a binding (R123, R173, R246), and tile faults (R364).
-/
namespace Sys2Proof.Machine

/-- The outcome of a step whose effect is `s`: a fault when a device unit was directed to a physical address that no
memory holds. -/
def finish (s : State) : Host.Outcome State Fault Refusal :=
  match s.stuck with
  | some pa => .fault (.unpopulated pa)
  | none => .next s

/-! ### Traps (R348, R351) -/

/-- The SCAUSE word of a trap (R351). -/
def TrapRec.scause (r : TrapRec) : Word :=
  BitVec.ofNat 64 (r.elem.toNat * 2 ^ 32 + r.mcode.toNat * 2 ^ 21 + r.op.toNat * 2 ^ 16
    + (match r.handle with | some h => 2 ^ 15 + h.toNat * 2 ^ 12 | none => 0) + r.slot.toNat * 2 ^ 8 + r.code.toNat)

/-- A trap without a handle. -/
def mkTrap (code slot : Nat) (bad det baddr : Word) : TrapRec :=
  { code := BitVec.ofNat 8 code, slot := BitVec.ofNat 4 slot, bad, det, handle := none, op := 0, mcode := 0, elem := 0,
    baddr }

/-! ### The berth's records -/

/-- A record about a binding: its berth, frame, template and tag. -/
def State.bindRec (s : State) (t : Nat) (b : Fin 5) (typ : Nat) : FaultRec :=
  let y := s.berth t b
  { s.jobRec t typ with berth := b.val, frame := y.frame, tidx := ((s.tile t).frame y.frame.toNat).tidx,
                        tag := y.tag }

/-- Records 0x10, 0x11 and 0x12 of pending faults whose binding has ended (R172, R200, R220, R362). -/
def State.postAsync (s : State) (t : Nat) (r : FaultRec) (eng : Nat) (q : TrapRec) : State :=
  let job := (s.tile t).job.toNat
  if q.code = 0x08 then
    s.postCaptured job r.inc { r with typ := 0x10, w4 := q.scause &&& ~~~0xF00#64, w5 := q.bad, w6 := q.det,
                                      w7 := BitVec.ofNat 64 eng }
  else if q.code = 0x09 then
    s.postCaptured job r.inc { r with typ := 0x11, w4 := q.det &&& 0xFFFFFFFF#64, w5 := q.det >>> 32 }
  else s.postCaptured job r.inc { r with typ := 0x12, w4 := q.bad, w5 := q.det }

/-! ### Ending a binding (R123, R173, R246) -/

/-- The macros of a berth that go on after its binding has ended (R173). -/
def State.detach (s : State) (t : Nat) (b : Fin 5) : List Detached :=
  let x := s.tile t
  let y := s.berth t b
  ([0, 1, 2, 3, 4, 5, 6, 7] : List (BitVec 3)).filterMap fun m =>
    if (y.hd m).active then some { h := y.hd m, m, who := s.issuer t b, job := x.job, inc := (s.jobOf t).inc } else none

/-- The end of a berth's binding, the frame apart: active macros are detached, results still landing are discarded with
the loops and a pending transfer, and the berth is free unless a detached macro uses its z tiles; the other handles stay as they are until the
next bind (R169, R173). -/
def State.endBinding (s : State) (t : Nat) (b : Fin 5) : State :=
  let y := s.berth t b
  let r := s.bindRec t b 0
  let ds := s.detach t b
  let s := y.faults.foldl (fun s q => s.postAsync t r (match q.handle with | some h => (y.hd h).eng.toNat | none => 0) q) s
  let x := s.tile t
  let z := { s.berth t b with landing := [], loops := [], xfer := none, after := .nothing, faults := [], trap := none,
                              barrier := none, arrives := 0, resume := [],
                              handles := y.handles.map fun h => if h.active then {} else h,
                              status := if ds.any fun d => d.h.usesZ then .ending else .free }
  s.setTile t ({ x with detached := x.detached ++ ds }.setBerth b z)

/-- DONE: the binding ends and its frame is released (R123). -/
def State.endDoneBinding (s : State) (t : Nat) (b : Fin 5) : State :=
  let f := (s.berth t b).frame.toNat
  (s.endBinding t b).releaseFrame t f

/-- YIELD: the binding ends and its token is ready again at an address, with AGE 0 (R123, R242). -/
def State.endYieldBinding (s : State) (t : Nat) (b : Fin 5) (ip : BitVec 19) : State :=
  let f := (s.berth t b).frame.toNat
  let s := s.endBinding t b
  let x := s.tile t
  s.setTile t (x.setFrame f { x.frame f with st := .ready, age := 0, ip })

/-! ### The save area (R352) -/

/-- A 512-bit value as 64 bytes. -/
def wideBytes (v : BitVec 512) : List Byte := leBytes 64 v.toNat

/-- FILE and REG of a landing destination. -/
def Dest.file : Dest → Nat
  | .g r => r.toNat
  | .v r => 2 ^ 6 + r.toNat
  | .p r => 2 * 2 ^ 6 + r.toNat

/-- The 80 bytes of a landing entry (R352). -/
def landingBytes (pos : Nat) (e : Landing) : List Byte :=
  leBytes 8 (e.dest.file + (e.pos - pos) % 256 * 2 ^ 8 + e.flags.toNat * 2 ^ 16 + 2 ^ 22) ++ leBytes 8 0
    ++ wideBytes e.data

/-- The 32 bytes of a loop record; an inactive one is 0. -/
def loopBytes : Option LoopRec → List Byte
  | some l => leBytes 8 (l.start.toNat % 2 ^ 19 + l.exit.toNat % 2 ^ 19 * 2 ^ 19 + 2 ^ 38) ++ leBytes 8 l.count.toNat
      ++ leBytes 8 l.lc.toNat ++ leBytes 8 0
  | none => leBytes 32 0

/-- The 128 bytes of a handle (R352). -/
def handleBytes (h : Handle) : List Byte :=
  wideBytes h.desc
    ++ leBytes 8 (h.status.toNat + h.variant.toNat * 2 ^ 5 + h.qmask.toNat * 2 ^ 8)
    ++ leBytes 8 h.progress.toNat ++ leBytes 8 h.daddr.toNat ++ leBytes 8 h.fmt.toNat ++ leBytes 32 h.aux.toNat

/-- The 17,408 bytes of a berth's save area, with DISP 0 (R352). -/
def saveBytes (y : Berth) : List Byte :=
  let depth := y.loops.length
  let loop (k : Nat) : List Byte := loopBytes (if k < depth then y.loops[depth - 1 - k]? else none)
  (List.range 64).flatMap (fun i => leBytes 8 (y.rg (BitVec.ofNat 6 i)).toNat)
  ++ (List.range 16).flatMap (fun i => leBytes 8 (y.rp (BitVec.ofNat 4 i)).toNat)
  ++ wordsBytes
      [BitVec.ofNat 64 (y.ip.toNat % 2 ^ 19), y.retb, y.fflags.setWidth 64, BitVec.ofNat 64 (b2n y.ftz),
       y.vlt.setWidth 64,
       match y.xfer with
       | some ⟨some a, left, _, _⟩ => BitVec.ofNat 64 (a.toNat % 2 ^ 19 + left * 2 ^ 19 + 2 ^ 21)
       | some ⟨none, left, _, _⟩ => BitVec.ofNat 64 (left * 2 ^ 19)
       | none => 0,
       BitVec.ofNat 64 (b2n y.latch + y.arrives * 2), 0]
  ++ loop 0 ++ loop 1 ++ loop 2 ++ loop 3
  ++ y.fmt.toList.flatMap (fun w => leBytes 8 w.toNat)
  ++ y.shape.toList.flatMap (fun w => leBytes 8 w.toNat)
  ++ (match y.barrier with
      | some (a, g) => leBytes 8 (a.toNat + 2 ^ 63) ++ leBytes 8 g.toNat ++ leBytes 16 0
      | none => leBytes 32 0)
  ++ y.v.toList.flatMap wideBytes
  ++ y.z.toList.flatMap (fun z => leBytes 2048 z.toNat)
  ++ y.handles.toList.flatMap handleBytes
  ++ (y.landing.flatMap (landingBytes y.pos)) ++ List.replicate (80 * (64 - y.landing.length)) 0

/-- The scope of the release and acquire of a save and a restore: `.sys` for a job that spans modules (R295). -/
def State.saveScope (s : State) (t : Nat) : Scope := if (s.jobOf t).rem = 0 then .wafer else .sys

/-- A berth whose results have all arrived is written to its save area and its frame becomes SAVED (R350, R352); a save
has performed its release (R295). -/
def State.saveBerth (s : State) (t : Nat) (b : Fin 5) : State :=
  let y := s.berth t b
  let x := (s.tile t).deviceWrite (saveBase (s.tile t) b.val) (saveBytes y)
  let f := y.frame.toNat
  let x := x.setFrame f { x.frame f with st := .saved }
  s.setTile t (x.setBerth b { y with status := if y.status = .preSaving then .held else .trapped })

/-- A landing entry as the save area holds it; none when it is not valid. -/
def readLanding (x : Tile) (p pos : Nat) : Option Landing :=
  let w := x.padWord p
  if wbit w 22 then
    let r := wbits w 5 0
    let L := wbits w 15 8
    some { dest := match wbits w 7 6 with
             | 0 => .g (BitVec.ofNat 6 r)
             | 1 => .v (BitVec.ofNat 5 r)
             | _ => .p (BitVec.ofNat 4 r),
           pos := pos + L, data := BitVec.ofNat 512 (leNat (x.padBytes (p + 16) 64)), flags := w.extractLsb' 16 6,
           wait := .here, buffered := true }
  else none

/-- A handle as the save area holds it; what the area does not hold stays as the berth kept it. -/
def readHandle (x : Tile) (p : Nat) (old : Handle) : Handle :=
  let w := x.padWord (p + 64)
  let g := x.padWord (p + 72)
  { old with
    op := w.extractLsb' 32 5, eng := w.extractLsb' 29 3, code := w.extractLsb' 25 4, st := HState.ofCode (wbits w 18 16),
    xtag := w.extractLsb' 48 16, flags := w.extractLsb' 0 5, total := g.extractLsb' 32 32, prog := g.extractLsb' 0 32,
    desc := BitVec.ofNat 512 (leNat (x.padBytes p 64)), daddr := (x.padWord (p + 80)).extractLsb' 0 19,
    variant := w.extractLsb' 5 3, fmt := x.padWord (p + 88), qmask := w.extractLsb' 8 7,
    aux := BitVec.ofNat 256 (leNat (x.padBytes (p + 96) 32)) }

/-- Loop record `k` as the save area holds it. -/
def readLoop (x : Tile) (p k : Nat) : Option LoopRec :=
  let w := x.padWord (p + 0x2C0 + 32 * k)
  if wbit w 38 then
    some { start := BitVec.ofNat 64 (wbase + wbits w 18 0), exit := BitVec.ofNat 64 (wbase + wbits w 37 19),
           count := x.padWord (p + 0x2C0 + 32 * k + 8), lc := x.padWord (p + 0x2C0 + 32 * k + 16) }
  else none

/-- A berth reloaded from bytes of its save area at a linear offset; z tiles and handles only after TPRE (R353). What
the area does not hold (the kind of a pending transfer) stays as the berth kept it (log entry 15). -/
def readSaved (x : Tile) (p : Nat) (y : Berth) (full : Bool) : Berth :=
  let word (o : Nat) : Word := x.padWord (p + o)
  let tx := word 0x2A8
  let left := wbits tx 20 19
  let keep := match y.xfer with | some q => q.endsLoops | none => false
  let eret := match y.xfer with | some q => q.eret | none => false
  { y with
    g := Vector.ofFn fun i => if i.val = 0 then 0 else word (8 * i.val)
    p := Vector.ofFn fun i => if i.val = 0 then 0 else word (0x200 + 8 * i.val)
    ip := BitVec.ofNat 64 (wbase + wbits (word 0x280) 18 0)
    retb := word 0x288
    fflags := (word 0x290).extractLsb' 0 6
    ftz := wbit (word 0x298) 0
    vlt := (word 0x2A0).extractLsb' 0 12
    xfer := if wbit tx 21 then
              some { target := some (BitVec.ofNat 64 (wbase + wbits tx 18 0)), left, endsLoops := keep, eret }
            else if left = 0 then none
            else some { target := none, left, endsLoops := false, eret }
    latch := wbit (word 0x2B0) 0
    arrives := wbits (word 0x2B0) 3 1
    loops := [readLoop x p 3, readLoop x p 2, readLoop x p 1, readLoop x p 0].filterMap id
    fmt := Vector.ofFn fun i => word (0x340 + 8 * i.val)
    shape := Vector.ofFn fun i => word (0x3C0 + 8 * i.val)
    barrier := if wbit (word 0x3E0) 63 then some ((word 0x3E0).extractLsb' 0 56, (word 0x3E8).extractLsb' 0 32) else none
    v := Vector.ofFn fun i => BitVec.ofNat 512 (leNat (x.padBytes (p + 0x400 + 64 * i.val) 64))
    z := if full then Vector.ofFn fun i => BitVec.ofNat 16384 (leNat (x.padBytes (p + 0xC00 + 2048 * i.val) 2048))
         else y.z
    handles := if full then Vector.ofFn fun i => readHandle x (p + 0x2C00 + 128 * i.val) (y.hd (BitVec.ofNat 3 i.val))
               else y.handles
    landing := (List.range 64).filterMap fun i => readLanding x (p + 0x3000 + 80 * i) y.pos
    trap := none, after := .nothing }

/-- GEN of the barrier object at an address, read at its home (R219, R221). -/
def State.barrierGen (s : State) (t : Nat) (a : Word) : Option (BitVec 32) :=
  if eaWindow a then some (((s.tile t).padWord (eaOff a)).extractLsb' 32 32)
  else match s.walk (s.tile t).job.toNat (eaVa a) with
    | .leaf e b => some ((s.pw (s.physKey e (leafBase e + eaVa a % 2 ^ b))).extractLsb' 32 32)
    | _ => none

/-- The scope of the acquire of a restored berth: that of its save, `.sys` when it has a barrier that may have completed meanwhile (R294,
R295). -/
def State.restoreScope (s : State) (t : Nat) (b : Fin 5) : Scope := if (s.berth t b).barrier.isSome then .sys else s.saveScope t

/-- The wait latch of a restored binding: set when its barrier's generation has moved on (R221). -/
def State.recheckBarrier (s : State) (t : Nat) (b : Fin 5) : State :=
  let y := s.berth t b
  match y.barrier with
  | none => s
  | some (a, g) =>
    match s.barrierGen t (a.setWidth 64) with
    | none => s
    | some g' =>
      if g' = g then s
      else s.setBerth t b { y with latch := true }

/-! ### Tile faults (R364) -/

/-- A record about a detached macro. -/
def Detached.about (d : Detached) (t : Nat) : FaultRec :=
  { typ := 0x10, berth := d.who.berth.val, ltn := t, inc := d.inc, job := d.job, frame := d.who.frame, tidx := d.who.tidx,
    tag := d.who.tag }

/-- Record 0x10 of a detached macro that a tile fault stopped (R436). -/
def State.postStopped (s : State) (t : Nat) (d : Detached) : State :=
  s.postAsync t (d.about t) d.h.eng.toNat { mkTrap 0x08 0 0 0 0 with handle := some d.m, op := d.h.op, elem := d.h.prog }

/-- Record 0x1F of each frame that is not FREE, in frame order (R364). -/
def State.postFrames (s : State) (t : Nat) : State :=
  (s.tile t).liveFrames.foldl (fun s f =>
    let y := (s.tile t).frame f
    s.postJob (s.tile t).job.toNat
      { s.jobRec t 0x1F with frame := BitVec.ofNat 8 f, tidx := y.tidx, tag := y.tag, w4 := y.word 0, w5 := y.word 1,
                             w6 := y.word 3 }) s

/-- A tile fault: every macro on the tile's engines is stopped, and records 0x1E and 0x1F are posted (R364, R436). -/
def State.faultTile (s : State) (t reason : Nat) (addr scause : Word) (frames : Bool) : State :=
  if (s.tile t).faulted then s
  else
    let x := { s.tile t with faulted := true }
    let x := [0, 1, 2, 3, 4].foldl (fun (x : Tile) (b : Fin 5) => x.stopMacros b .stopped) x
    let ds := x.detached
    let x := ds.foldl (fun x d => x.dropUid d.h.uid) { x with detached := [] }
    let s := s.setTile t x
    let s := s.postJob x.job.toNat
      { s.jobRec t 0x1E with w4 := BitVec.ofNat 64 reason, w5 := addr, w6 := BitVec.ofNat 64 x.liveFrames.length,
                             w7 := if reason = 2 then scause else 0 }
    let s := ds.foldl (fun s d => s.postStopped t d) s
    if frames then s.postFrames t else s

/-! ### Taking a trap (R350, R354) -/

/-- A berth takes a trap. A job berth issues nothing further: its trap is kept, and it joins the queue for the supervisor
berth once it is saved. In the supervisor berth a synchronous trap is a tile fault of reason 2 (R354, R364). Its accesses are ordered before those that follow the ERET (R295). -/
def State.takeTrap (s : State) (t : Nat) (b : Fin 5) (r : TrapRec) : State :=
  if b = 4 then s.faultTile t 2 r.bad r.scause true
  else
    let x := (s.tile t).withRelease b s.uid .sys
    { s.setTile t ({ x with trapQ := x.trapQ ++ [b] }.setBerth b { s.berth t b with status := .trapSaving, trap := some r }) with
      uid := s.uid + 1 }

/-! ### Supervisor entry (R350, R351) -/

/-- SBERTH of a trapped berth. -/
def sberthWord (y : Berth) (b : Fin 5) (baddr : Word) : Word :=
  BitVec.ofNat 64 (y.tag.toNat * 2 ^ 30 + baddr.toNat % 2 ^ 19 * 2 ^ 11 + y.frame.toNat * 2 ^ 3 + b.val)

/-- The supervisor berth enters at SVEC for the oldest trapped berth, once it is saved (R350). -/
def State.enterSupervisor (s : State) (t : Nat) : State :=
  let x := s.tile t
  match x.trapQ, x.handling with
  | b :: bs, none =>
    let y := s.berth t b
    match y.trap with
    | some r =>
      if y.status = .trapped then
        let z := s.berth t 4
        let x := { x with trapQ := bs, handling := some b, scause := r.scause, sbad := r.bad, sdet := r.det,
                          sberth := sberthWord y b r.baddr }
        s.setTile t (x.setBerth 4 { z with status := .bound, ip := BitVec.ofNat 64 (wbase + x.svec.toNat), xfer := none,
                                           loops := [] })
      else s
    | none => s
  | _, _ => s

/-! ### Resuming macros (R192, R193) and returning from a trap (R353) -/

/-- A macro re-entered in its queue from PROG: CODE and XTAG are cleared and FLAGS kept (R192). -/
def State.reenter (s : State) (t : Nat) (b : Fin 5) (m : BitVec 3) : State :=
  let h := (s.berth t b).hd m
  let h := { h with st := .queued, code := 0, xtag := 0, entered := s.uid }
  let x := (s.tile t).setBerth b ((s.berth t b).setHd m h)
  let x := { x with loadedFor := if x.loadedFor = h.uid then 0 else x.loadedFor }
  s.setTile t (if h.op = 13 then x.enqueueFence h.qmask h.uid else x.enqueueMac h)

/-- The berth fault of a macro element (R172). -/
def macroFault (m : BitVec 3) (h : Handle) (bad det : Word) : TrapRec :=
  { mkTrap 0x08 0 bad det 0 with handle := some m, op := h.op, mcode := h.code, elem := h.prog }

/-- A STOPPED handle of a restored berth resumed: its descriptor is read again at the recorded address, START ignored; one
that differs stops the macro FAULTED with CODE descriptor (R193). -/
def State.resumeStopped (s : State) (t : Nat) (b : Fin 5) (m : BitVec 3) : State :=
  let y := s.berth t b
  let h := y.hd m
  if h.st ≠ .stopped then s
  else
    let d := (s.tile t).descAt h.daddr.toNat
    let none0 := BitVec.ofNat 512 (2 ^ 512 - 2 ^ 32)
    -- TZ, TSHAPE and QFENCE have no descriptor
    if h.op = 6 || h.op = 7 || h.op = 13 || d &&& none0 = h.desc &&& none0 then s.reenter t b m
    else
      let h := { h with st := .faulted, code := 8 }
      let y := y.setHd m h
      s.setBerth t b { y with faults := y.faults ++ [macroFault m h (BitVec.ofNat 64 (wbase + h.daddr.toNat)) 0] }

/-- Whether MRES of a handle would be held: its descriptor overlaps a copy in flight, its queue is full, or no entry of the scoreboard is free
(R134, R168, R193). -/
def State.resumeHeld (s : State) (t : Nat) (b : Fin 5) (m : BitVec 3) : Bool :=
  let x := s.tile t
  let h := (s.berth t b).hd m
  let full := if h.op = 13 then (List.range 7).any fun e => h.qmask.getLsbD e && x.queueFull e
    else h.op != 7 && x.queueFull h.eng.toNat
  (h.op != 6 && h.op != 13 && x.scoreHit (fun _ => true) (winRange h.daddr.toNat 64)) || full
    || (!(x.macroRanges h).isEmpty && decide (128 ≤ x.score.length))

/-- The STOPPED handles of a restored berth resumed in order, as far as MRES would not be held (R193). -/
def State.resumeAll (s : State) (t : Nat) (b : Fin 5) : List (BitVec 3) → State
  | [] => s
  | m :: r =>
    if s.resumeHeld t b m then s
    else
      let s := s.resumeStopped t b m
      (s.setBerth t b { s.berth t b with resume := r }).resumeAll t b r

/-- The handles of a restored berth that are to be resumed before its first bundle, m0 first (R193; log entry 14). -/
def State.markResume (s : State) (t : Nat) (b : Fin 5) : State :=
  let y := s.berth t b
  s.setBerth t b { y with resume := ([0, 1, 2, 3, 4, 5, 6, 7] : List (BitVec 3)).filter fun m => (y.hd m).st == .stopped }

/-- The frame of a berth that runs again is BOUND. -/
def State.rebind (s : State) (t : Nat) (b : Fin 5) : State :=
  let x := s.tile t
  let f := (s.berth t b).frame.toNat
  s.setTile t (x.setFrame f { x.frame f with st := .bound })

/-- A berth resumed from its save area (R353 DISP 0, R193, R221, R295): after TPRE (`full`) every field is reloaded, an
acquire is performed, and its STOPPED handles are to be resumed; after a trap its later accesses follow those before it (R295). -/
def State.restoreBerth (s : State) (t : Nat) (b : Fin 5) (full : Bool) : State :=
  let x := s.tile t
  let y := readSaved x (saveBase x b.val) (s.berth t b) full
  let s := s.setBerth t b { y with status := .bound }
  let s := s.rebind t b
  let s := if full then (s.acquire t b (s.restoreScope t b)).markResume t b else s.acquire t b .sys
  s.recheckBarrier t b

/-! ### Berths that a RESUME restores (R193, R295, R346, R370) -/

/-- A berth restored from a gate save block: an acquire, its STOPPED handles resumed unless TPRE holds it, its frame BOUND again and
its barrier's generation looked at when it is to issue. -/
def State.reviveBerth (s : State) (t : Nat) (b : Fin 5) : State :=
  let y := s.berth t b
  match y.status with
  | .bound =>
    let s := (s.acquire t b (s.restoreScope t b)).markResume t b
    let s := if b = 4 then s else s.rebind t b
    s.recheckBarrier t b
  | .trapped | .trapSaving => (s.acquire t b (s.restoreScope t b)).markResume t b
  | _ => s.acquire t b (s.restoreScope t b)

/-- Whether a berth moved here may be restored: its frame has the presence bits of the save, and for the supervisor berth the berth
that it handles has been restored (R346). -/
def Tile.mayRevive (x : Tile) (m : Fin 5 × Option (BitVec 16) × BStatus) : Bool :=
  match m.2.1 with
  | some p => (x.frame (x.berths[m.1]).frame.toNat).pres == p
  | none => !(x.moved.any fun k => some k.1 == x.handling)

/-- The berths moved to a tile that may be restored now are (R346). -/
def State.restoreMoved (s : State) (t : Nat) : State :=
  (s.tile t).moved.foldl (fun s m =>
    let x := s.tile t
    if x.mayRevive m then
      let s := s.setTile t
        ({ x with moved := x.moved.filter fun k => k.1 != m.1 }.setBerth m.1 { x.berths[m.1] with status := m.2.2 })
      s.reviveBerth t m.1
    else s) s

/-- The supervisor waits for its next entry. -/
def State.idleSupervisor (s : State) (t : Nat) : State :=
  let x := s.tile t
  s.setTile t ({ x with handling := none }.setBerth 4 { s.berth t 4 with status := .free, xfer := none })

/-- The effect of ERET once its delay bundles have retired (R224, R353): by DISP of the save area of SBERTH.BERTH the
berth resumes, ends as by DONE, or ends as by YIELD. ERET traps, which in the supervisor berth is a tile fault, for DISP 3
and for a berth that is neither trapped nor held; while that berth's save is outstanding it waits. -/
def State.returnFromTrap (s : State) (t : Nat) (baddr : Word) (slot : Nat) : State :=
  let x := s.tile t
  let k := wbits x.sberth 2 0
  let bad := s.takeTrap t 4 (mkTrap 0x02 slot baddr 0 baddr)
  if h : k < 4 then
    let b : Fin 5 := ⟨k, by omega⟩
    let y := s.berth t b
    let disp := wbits (x.padWord (saveBase x k + 0x2B8)) 1 0
    if y.status = .trapSaving ∨ y.status = .preSaving then
      s.setBerth t 4 { s.berth t 4 with xfer := some { target := some baddr, left := 0, endsLoops := false, eret := true } }
    else if y.status ≠ .trapped ∧ y.status ≠ .held then bad
    else if disp = 3 then bad
    else
      -- a trapped berth acted on is no longer queued for entry
      let s := s.setTile t { x with trapQ := x.trapQ.filter fun c => c != b }
      let s := if disp = 0 then s.restoreBerth t b (decide (y.status = .held))
        else if disp = 1 then s.endDoneBinding t b
        else s.endYieldBinding t b ((x.padWord (saveBase x k + 0x280)).extractLsb' 0 19)
      s.idleSupervisor t
  else bad

end Sys2Proof.Machine
end

