-- ==== Sys2Proof/Machine/Operands.lean ====
section
/-!
DEFINITION. Machine/Operands.lean: what a slot reads and writes (R24, R28 to R34, R47 to R66), the operand forms and
effective addresses (R24, R26 to R28, R126), results that land (R35 to R39, R45), and what a slot answers.
-/
namespace Sys2Proof

/-- Whether a special register is reached only by the supervisor berth (R66). -/
def SpecReg.sup : SpecReg → Bool
  | .svec | .scause | .sbad | .sdet | .sberth | .ssave | .sstat | .esoftc | .ehardc | .ejlimc | .estatc | .ewpos => true
  | _ => false

/-- The width in bytes of a load or store (R57). -/
def LdW.bytes : LdW → Nat
  | .b => 1
  | .h => 2
  | .w => 4
  | .d => 8
  | .q => 16

/-- The width in bytes of a sign-extending load (R57). -/
def LdsW.bytes : LdsW → Nat
  | .b => 1
  | .h => 2
  | .w => 4

end Sys2Proof

namespace Sys2Proof.Machine

/-! ### The form of a slot -/

/-- Slot classes (R29). -/
inductive Cls | s | f | c | l | v | m | n | imx
  deriving DecidableEq, Repr

/-- What R33 counts as an architectural register. -/
inductive WReg
  | g (r : GReg)
  | v (r : VReg)
  | p (r : PReg)
  | h (m : MReg)
  | spec (r : SpecReg)
  deriving DecidableEq, Repr

/-- The form of an instruction: what the checks of R44 and the ports of R34 need to know of it. -/
structure Form where
  /-- The class; NOP has none (R30). -/
  cls : Option Cls := none
  /-- The g register that D names. -/
  d : Option GReg := none
  /-- The other g fields, A first, that obey the cluster rule (R31). -/
  gs : List GReg := []
  /-- Registers read that the cluster rule does not bind: A of XMOV, gD+1 of a q store. -/
  free : List GReg := []
  /-- Whether D is read. -/
  dRead : Bool := false
  /-- Registers written (R33). -/
  writes : List WReg := []
  /-- The landing distance of its results; 0 when it has none (R36). -/
  lat : Nat := 0
  /-- LAND, for a slot that must have it nonzero (R24, R50). -/
  land : Option Land := none
  /-- Whether D must be even (R57). -/
  odd : Bool := false
  /-- Whether it is immediate-using (R27). -/
  imm : Bool := false
  /-- Whether it is a transfer (R41, R125). -/
  transfer : Bool := false
  /-- Whether it may not stand in a delay bundle (R42, R114, R223). -/
  noDelay : Bool := false
  /-- Whether it is supervisor-only (R48, R66). -/
  sup : Bool := false
  deriving DecidableEq, Repr

/-- The form of each slot instruction (R47 to R66); what is no slot instruction has none. -/
def form : Instr → Form
  | .nop =>
    {}
  | .jmpi a | .ret a =>
    { cls := some .c, gs := [a], transfer := true, noDelay := true }
  | .yield | .done =>
    { cls := some .c, noDelay := true }
  | .trap a | .brk a =>
    { cls := some .c, gs := [a], noDelay := true }
  | .kchain a b =>
    { cls := some .c, gs := [a, b], noDelay := true }
  | .sys a b =>
    { cls := some .c, gs := [a, b] }
  | .wfe =>
    { cls := some .c }
  | .eret =>
    { cls := some .c, transfer := true, noDelay := true, sup := true }
  | .tlbi a b =>
    { cls := some .c, gs := [a, b], sup := true }
  | .tpre a =>
    { cls := some .c, gs := [a], sup := true }
  | .halt =>
    { cls := some .c, sup := true }
  | .br _ | .jmp _ | .brnP _ _ _ =>
    { cls := some .c, transfer := true, noDelay := true }
  | .call d _ =>
    { cls := some .c, d := some d, writes := [.g d], lat := 1, transfer := true, noDelay := true }
  | .brnZ d _ | .brnNz d _ =>
    { cls := some .c, d := some d, dRead := true, transfer := true, noDelay := true }
  | .loop d _ =>
    { cls := some .c, d := some d, dRead := true, noDelay := true }
  | .loopi _ _ =>
    { cls := some .c, noDelay := true }
  | .add d a b | .sub d a b | .and d a b | .or d a b | .xor d a b | .andn d a b | .sll d a b | .srl d a b
  | .sra d a b | .ror d a b | .min d a b | .max d a b | .minu d a b | .maxu d a b | .slt d a b | .sltu d a b
  | .ext d a b | .extu d a b =>
    { cls := some .s, d := some d, gs := [a, b], writes := [.g d], lat := 1 }
  | .mul d a b | .mulh d a b | .mulhu d a b =>
    { cls := some .s, d := some d, gs := [a, b], writes := [.g d], lat := 3 }
  | .div d a b | .divu d a b | .rem d a b | .remu d a b =>
    { cls := some .s, d := some d, gs := [a, b], writes := [.g d], lat := 20 }
  | .sllImm d a _ | .srlImm d a _ | .sraImm d a _ | .rorImm d a _ | .clz d a | .ctz d a | .popc d a
  | .mov d a =>
    { cls := some .s, d := some d, gs := [a], writes := [.g d], lat := 1 }
  | .sel d a b | .ins d a b =>
    { cls := some .s, d := some d, gs := [a, b], dRead := true, writes := [.g d], lat := 1 }
  | .madd d a b =>
    { cls := some .s, d := some d, gs := [a, b], dRead := true, writes := [.g d], lat := 3 }
  | .xmov d a =>
    { cls := some .s, d := some d, free := [a], writes := [.g d], lat := 1 }
  | .addi d a _ | .andi d a _ | .ori d a _ | .xori d a _ =>
    { cls := some .s, d := some d, gs := [a], writes := [.g d], lat := 1, imm := true }
  | .lui d _ | .addpc d _ =>
    { cls := some .s, d := some d, writes := [.g d], lat := 1, imm := true }
  | .imx _ =>
    { cls := some .imx }
  | .fadd _ d a b | .fsub _ d a b | .fmul _ d a b =>
    { cls := some .f, d := some d, gs := [a, b], writes := [.g d], lat := 4 }
  | .ffma _ d a b =>
    { cls := some .f, d := some d, gs := [a, b], dRead := true, writes := [.g d], lat := 4 }
  | .fdiv _ d a b =>
    { cls := some .f, d := some d, gs := [a, b], writes := [.g d], lat := 14 }
  | .fmin _ d a b | .fmax _ d a b | .fcmp _ _ d a b =>
    { cls := some .f, d := some d, gs := [a, b], writes := [.g d], lat := 2 }
  | .fsqrt _ d a =>
    { cls := some .f, d := some d, gs := [a], writes := [.g d], lat := 14 }
  | .fcvt _ _ d a =>
    { cls := some .f, d := some d, gs := [a], writes := [.g d], lat := 4 }
  | .fabs _ d a | .fneg _ d a =>
    { cls := some .f, d := some d, gs := [a], writes := [.g d], lat := 1 }
  | .csrr d r =>
    { cls := some .c, d := some d, writes := [.g d], lat := 1, sup := r.sup }
  | .csrrRsc d _ =>
    { cls := some .c, d := some d, writes := [.g d], lat := 1 }
  | .csrw r d =>
    { cls := some .c, d := some d, dRead := true, writes := [.spec r], sup := r.sup }
  | .csrwFmt k d =>
    { cls := some .c, d := some d, dRead := true, writes := [.spec (.fmt k)] }
  | .csrwShape k d =>
    { cls := some .c, d := some d, dRead := true, writes := [.spec (.shape k)] }
  | .csrwCctl c d =>
    { cls := some .c, d := some d, dRead := true, writes := [.spec (.cctl c)] }
  | .csrwEvctl d =>
    { cls := some .c, d := some d, dRead := true, writes := [.spec .evctl] }
  | .csrwEvwh k d =>
    { cls := some .c, d := some d, dRead := true, writes := [.spec (.evwh k)] }
  | .ld wd l d a _ =>
    (match wd with
      | .q => { cls := some .l, d := some d, gs := [a], writes := [.g d, .g (d + 1)], lat := l.toNat, land := some l, odd := true, imm := true }
      | _ => { cls := some .l, d := some d, gs := [a], writes := [.g d], lat := l.toNat, land := some l, imm := true })
  | .ldIndexed wd l d a b =>
    (match wd with
      | .q => { cls := some .l, d := some d, gs := [a, b], writes := [.g d, .g (d + 1)], lat := l.toNat, land := some l, odd := true }
      | _ => { cls := some .l, d := some d, gs := [a, b], writes := [.g d], lat := l.toNat, land := some l })
  | .lds _ l d a _ | .tagld l d a _ | .ldDAcq _ l d a _ =>
    { cls := some .l, d := some d, gs := [a], writes := [.g d], lat := l.toNat, land := some l, imm := true }
  | .ldsIndexed _ l d a b =>
    { cls := some .l, d := some d, gs := [a, b], writes := [.g d], lat := l.toNat, land := some l }
  | .st wd d a _ =>
    (match wd with
      | .q => { cls := some .l, d := some d, gs := [a], dRead := true, free := [d + 1], odd := true, imm := true }
      | _ => { cls := some .l, d := some d, gs := [a], dRead := true, imm := true })
  | .stIndexed wd d a b =>
    (match wd with
      | .q => { cls := some .l, d := some d, gs := [a, b], dRead := true, free := [d + 1], odd := true }
      | _ => { cls := some .l, d := some d, gs := [a, b], dRead := true })
  | .tagst d a _ | .mcst d a _ | .stDRel _ d a _ =>
    { cls := some .l, d := some d, gs := [a], dRead := true, imm := true }
  | .ldv l d a _ | .ldx l d a _ =>
    { cls := some .l, gs := [a], writes := [.v d], lat := l.toNat, land := some l, imm := true }
  | .stv _ a _ | .stx _ a _ =>
    { cls := some .l, gs := [a], imm := true }
  | .amo op _ l d a b =>
    { cls := some .l, d := some d, gs := [a, b], dRead := decide (op = .cas), writes := [.g d], lat := l.toNat, land := some l }
  | .amos op _ _ d a b =>
    { cls := some .l, d := some d, gs := [a, b], dRead := decide (op = .cas), writes := [.g d], lat := 15 }
  | .fence _ | .vjoin =>
    { cls := some .l }
  | .pref a =>
    { cls := some .l, gs := [a] }
  | .flush _ a b | .inval _ a b | .red _ _ a b =>
    { cls := some .l, gs := [a, b] }
  | .vadd _ d _ _ | .vsub _ d _ _ | .vmul _ d _ _ | .vmin _ d _ _ | .vmax _ d _ _ | .vabs _ d _ | .vneg _ d _
  | .vsel _ d _ _ | .vcvt _ d _ | .vand _ d _ _ | .vor _ d _ _ | .vxor _ d _ _ | .vshl _ d _ _
  | .vshr _ d _ _ | .vsra _ d _ _ | .vpopc _ d _ | .viota _ d | .vperm _ d _ _ | .vshuf _ d _ _ =>
    { cls := some .v, writes := [.v d], lat := 4 }
  | .vfma _ d _ _ =>
    { cls := some .v, writes := [.v d], lat := 5 }
  | .vdiv _ d _ _ =>
    { cls := some .v, writes := [.v d], lat := 14 }
  | .vsqrt _ d _ =>
    { cls := some .v, writes := [.v d], lat := 14 }
  | .vrcp _ d _ | .vrsq _ d _ | .vexp _ d _ | .vlog _ d _ =>
    { cls := some .v, writes := [.v d], lat := 8 }
  | .vreds _ d _ _ | .vredmMax _ d _ _ | .vredmMin _ d _ _ | .vscan _ d _ =>
    { cls := some .v, writes := [.v d], lat := 6 }
  | .vcmpEq _ d _ _ | .vcmpNe _ d _ _ | .vcmpLt _ d _ _ | .vcmpLe _ d _ _ =>
    { cls := some .v, writes := [.p d], lat := 4 }
  | .vbcast _ d b | .vpln _ d _ b | .vplj _ d _ b =>
    { cls := some .v, gs := [b], writes := [.v d], lat := 4 }
  | .vmovsG d _ b =>
    { cls := some .v, d := some d, gs := [b], writes := [.g d], lat := 4 }
  | .vmovsV d a b =>
    { cls := some .v, gs := [a, b], writes := [.v d], lat := 4 }
  | .tlw _ m a | .tmm _ m a | .tmmg _ m a | .trank _ m a | .tspz _ m a | .tdr _ m a | .tz m a | .gath _ m a
  | .scat _ m a | .copy _ m a | .copy2 _ m a | .qfence _ m a | .mres m a =>
    { cls := some .m, gs := [a], writes := [.h m] }
  | .setm _ m a b =>
    { cls := some .m, gs := [a, b], writes := [.h m] }
  | .tshape m a =>
    { cls := some .m, gs := [a], writes := [.h m, .spec (.shape 0), .spec (.shape 1), .spec (.shape 2), .spec (.shape 3)] }
  | .mwait _ =>
    { cls := some .m }
  | .mprg d _ | .mstat d _ =>
    { cls := some .m, d := some d, writes := [.g d], lat := 1 }
  | .mkill m =>
    { cls := some .m, writes := [.h m] }
  | .pub d a b | .steer d a b | .merge d a b | .send d a b | .fslot d a b | .evpost d a b =>
    { cls := some .n, d := some d, gs := [a, b], dRead := true }
  | .subNet l d a b | .unsub l d a b =>
    { cls := some .n, d := some d, gs := [a, b], writes := [.g d], lat := if d = 0 then 0 else l.toNat, land := some l }
  | .frame l d a b | .tagop l d a b =>
    { cls := some .n, d := some d, gs := [a, b], writes := [.g d], lat := l.toNat, land := some l }
  | .evrd l d a =>
    { cls := some .n, d := some d, gs := [a], writes := [.g d], lat := l.toNat, land := some l }
  | .stsnap a | .arrive a | .evtick a =>
    { cls := some .n, gs := [a] }
  | .grant a b | .spawn a b | .evcfgPset a b | .evcfgEntries a b | .evsnap a b =>
    { cls := some .n, gs := [a, b] }
  | _ => {}

/-- g registers that a slot reads, for the ports of R34. -/
def Form.reads (f : Form) : List GReg :=
  (f.gs ++ f.free ++ (if f.dRead then f.d.toList else [])).filter fun r => r != 0

/-- The cluster of a g register: 0 for A, 1 for B (R31). -/
def clusterOf (r : GReg) : Nat := r.toNat / 32

/-- The cluster of an instruction (R31). -/
def Form.cluster (f : Form) : Option Nat :=
  match f.d with
  | some d => some (clusterOf d)
  | none => f.gs.head?.map clusterOf

/-- Whether the cluster rule holds (R31). -/
def Form.clusterOk (f : Form) : Bool :=
  match f.cluster with
  | some c => f.gs.all fun r => clusterOf r == c
  | none => true

/-- Landing-buffer entries that its results take (R38). -/
def Form.buffers (f : Form) : Nat := if 2 ≤ f.lat then f.writes.length else 0

/-! ### A slot at issue -/

/-- Where and how a slot issues. -/
structure SlotCtx where
  /-- The tile. -/
  t : Nat
  /-- The berth. -/
  b : Fin 5
  /-- The berth before the bundle (R19). -/
  pre : Berth
  /-- The address of the bundle. -/
  baddr : Word
  /-- The address of the next sequential bundle. -/
  next : Word
  /-- Slot position, 1 to 8. -/
  slot : Nat
  /-- VAL of a preceding IMX (R28). -/
  ext : Option (BitVec 26)
  deriving DecidableEq, Repr

/-- What a slot answers: its effect, a trap, or the address of a table that no memory holds. -/
inductive SlotRes
  | ok (s : State)
  | trap (r : TrapRec)
  | hole (pa : Nat)
  deriving DecidableEq, Repr

/-- A g operand (R19). -/
def SlotCtx.g (c : SlotCtx) (r : GReg) : Word := c.pre.rg r
/-- A v operand. -/
def SlotCtx.v (c : SlotCtx) (r : VReg) : BitVec 512 := c.pre.rv r
/-- A p operand. -/
def SlotCtx.p (c : SlotCtx) (r : PReg) : Word := c.pre.rp r

/-- A trap of the slot (R348). -/
def SlotCtx.trap (c : SlotCtx) (code : Nat) (bad det : Word) : SlotRes := .trap (mkTrap code c.slot bad det c.baddr)
/-- The illegal-instruction trap with a detail (R348). -/
def SlotCtx.illegal (c : SlotCtx) (det : Word) : SlotRes := c.trap 0x02 c.baddr det

/-- The immediate of an RI slot (R27, R28). -/
def SlotCtx.imm (c : SlotCtx) (i : Imm14) : Word :=
  match c.ext with
  | some v => (v ++ i).signExtend 64
  | none => i.signExtend 64

/-- The offset of an MO slot, scaled by the width (R24, R28). -/
def SlotCtx.ofs (c : SlotCtx) (o : Ofs) (n : Nat) : Word :=
  (match c.ext with
   | some v => (v ++ o).signExtend 64
   | none => o.signExtend 64) * BitVec.ofNat 64 n

/-- The effective address of an MO slot (R24, R126). -/
def SlotCtx.eaOfs (c : SlotCtx) (a : GReg) (o : Ofs) (n : Nat) : Word := c.g a + c.ofs o n
/-- The effective address of an MX slot (R24, R126). -/
def SlotCtx.eaIdx (c : SlotCtx) (a b : GReg) : Word := c.g a + c.g b

/-- The target of a CB slot (R26). -/
def SlotCtx.target (c : SlotCtx) (d : Disp) : Word := c.baddr + d.signExtend 64 * 4

/-- The berth's state as the bundle's slots have left it. -/
def SlotCtx.cur (c : SlotCtx) (s : State) : Berth := s.berth c.t c.b

/-- The state with the issuing berth changed. -/
def SlotCtx.upd (c : SlotCtx) (s : State) (f : Berth → Berth) : State := s.setBerth c.t c.b (f (c.cur s))

/-- Land(reg, value, L) (R35, R45): the result is entered to land at position n + L. -/
def SlotCtx.landWide (c : SlotCtx) (s : State) (d : Dest) (x : BitVec 512) (l : Nat) (fl : FFlags) (w : LandWait) : State :=
  c.upd s fun y => { y with landing := y.landing ++
    [{ dest := d, pos := c.pre.pos + l, data := x, flags := fl, wait := w, buffered := decide (2 ≤ l) }] }

/-- Land of a g result with flags. -/
def SlotCtx.land (c : SlotCtx) (s : State) (d : GReg) (x : Word) (l : Nat) (fl : FFlags) : State :=
  c.landWide s (.g d) (x.setWidth 512) l fl .here

/-- Land of a v result with flags. -/
def SlotCtx.landV (c : SlotCtx) (s : State) (d : VReg) (x : BitVec 512) (l : Nat) (fl : FFlags) : State :=
  c.landWide s (.v d) x l fl .here

/-- Land of a p result with flags. -/
def SlotCtx.landP (c : SlotCtx) (s : State) (d : PReg) (x : Word) (l : Nat) (fl : FFlags) : State :=
  c.landWide s (.p d) (x.setWidth 512) l fl .here

/-- The scalar slot that lands a value. -/
def SlotCtx.result (c : SlotCtx) (s : State) (d : GReg) (x : Word) (l : Nat) (fl : FFlags) : SlotRes :=
  .ok (c.land s d x l fl)

/-- The scalar slot that lands a number with flags. -/
def SlotCtx.resultF (c : SlotCtx) (s : State) (d : GReg) (r : Nat × FFlags) (l : Nat) : SlotRes :=
  c.result s d (BitVec.ofNat 64 r.1) l r.2

/-! ### Operand checks (R176, R195) -/

/-- An operand value outside its limits (R195): the detail is the value. -/
def SlotCtx.badOperand (c : SlotCtx) (x : Word) : SlotRes := c.illegal x

/-- A window record of `n` bytes aligned to `al` at an address: its window offset, or the trap (R176, R195). -/
def SlotCtx.record (c : SlotCtx) (a : Word) (n al : Nat) : Except SlotRes Nat :=
  if wbits a 63 60 ≠ 0 then .error (c.trap 0x05 a (BitVec.ofNat 64 (5 * 8)))
  else match windowRun a n with
    | none => .error (c.trap 0x03 a 0)
    | some off => if off % al = 0 then .ok off else .error (c.trap 0x04 a (BitVec.ofNat 64 n))

end Sys2Proof.Machine
end

