-- ==== Sys2Proof/Machine/Memory.lean ====
section
/-!
DEFINITION. Machine/Memory.lean: the accesses of L slots: where the bytes of an access lie, the checks of R131 and R349, accesses to the
window (R128, R129, R137), tag records (R322), read-modify-writes there (R143), and the pieces of global accesses, which become the
tile's outstanding operations (R130, R133, R284).
-/
namespace Sys2Proof.Machine

/-! ### Where bytes lie -/

/-- The place of one byte of an access. -/
structure Place where
  /-- Its effective address. -/
  ea : Word
  /-- Whether it lies in the window. -/
  win : Bool
  /-- The window offset or the physical key; on a replicated page, that of the tile's own replica (R303). -/
  addr : Nat
  /-- The leaf entry of a global byte. -/
  leaf : Word
  deriving DecidableEq, Repr

/-- How the place of a byte stands. -/
inductive PlaceRes
  | at_ (p : Place)
  /-- A translation fault (R311). -/
  | fault (level cause : Nat)
  /-- A walk directed to a table that no memory holds. -/
  | hole (pa : Nat)
  /-- Beyond the scratchpad, or a global access that has run into the window (R128). -/
  | outside
  deriving DecidableEq, Repr

/-- Whether the places of a byte that an access uses are populated: on a replicated page the tile's own replica, or all four (R146, R303,
R306). -/
def State.replicasReach (s : State) (t : Nat) (all : Bool) (e : Word) (pa : Nat) : Bool :=
  !leafRpl e || (if all then [0, 1, 2, 3] else [quadrantOf t]).all fun k => s.leafReaches e (replicaPa pa k)

/-- The physical key of a byte for accesses of a tile: on a replicated page, in the tile's own replica (R146, R303). -/
def State.keyFor (s : State) (t : Nat) (e : Word) (pa : Nat) : Nat :=
  s.physKey e (if leafRpl e then replicaPa pa (quadrantOf t) else pa)

/-- The place of the byte at an effective address, of an access that started in the window or not; `all` when it reaches every replica. -/
def State.placeOf (s : State) (t : Nat) (inWin all : Bool) (ea : Word) : PlaceRes :=
  if wbits ea 63 60 ≠ 0 then .fault 0 5
  else if eaWindow ea then
    if inWin && decide (eaOff ea < padSize) then .at_ { ea, win := true, addr := eaOff ea, leaf := 0 } else .outside
  else if inWin then .outside
  else match s.translate t (eaVa ea) with
    | .hit e pa b =>
      if s.replicasReach t all e pa then .at_ { ea, win := false, addr := s.keyFor t e pa, leaf := e } else .fault (bitsLevel b) 3
    | .fault l k => .fault l k
    | .hole pa => .hole pa

/-! ### The checks (R131, R349) -/

/-- The tag-mismatch detail (R322, R348): the lock, the newest three locks that the home quay's log holds for the granule,
how many it found, and RLDROP. -/
def State.tagDetail (s : State) (key : Nat) (lock : BitVec 4) : Word :=
  if remoteKey key then lock.setWidth 64
  else
    let q := s.quay (s.homeQuay key)
    let old := ((q.rlog.reverse.filter fun e => e.toNat % 2 ^ 39 == key / 32).take 3).map fun e => e.toNat / 2 ^ 39 % 16
    BitVec.ofNat 64 (lock.toNat + old.getD 0 0 * 2 ^ 4 + old.getD 1 0 * 2 ^ 8 + old.getD 2 0 * 2 ^ 12
      + old.length * 2 ^ 16 + q.rldrop.toNat * 2 ^ 18)

/-- The first element of a list that a function answers for. -/
def firstSome {α β : Type} (f : α → Option β) : List α → Option β
  | [] => none
  | a :: r => match f a with
    | some b => some b
    | none => firstSome f r

/-- The lock that the latest TAGST of a berth that is still outstanding sets on a granule (R148). -/
def Tile.pendingLock (x : Tile) (b : Fin 5) (gran : Nat) : Option (BitVec 4) :=
  firstSome (fun (o : MemOp) => match o.what with
    | .tagst l => if o.b == b && o.key / 32 == gran then some l else none
    | _ => none) x.ops.reverse

/-- The lock that an access of berth `b` to a global byte is checked against: that of its own latest TAGST, else that of the level that
serves the access (R148, R320). -/
def State.lockFor (s : State) (t : Nat) (b : Fin 5) (p : Place) (home : Bool) : BitVec 4 :=
  match (s.tile t).pendingLock b (p.addr / 32) with
  | some l => l
  | none => if home || bypasses p.leaf then s.lockAt (p.addr / 32) else s.lockSeen t (p.addr / 32)

/-- The watchpoint of the tile's own job that a write of one byte touches (R363). -/
def State.watchSlot (s : State) (t : Nat) (p : Place) : Option Nat := (s.jobOf t).watchHit (!p.win) p.addr 1

/-- What an access needs. -/
structure Access where
  write : Bool
  /-- Natural alignment is required on every page and in the window (R132). -/
  aligned : Bool := false
  /-- The key is compared with locks (R147). -/
  tagged : Bool := true
  /-- It is performed at its home, past the caches. -/
  home : Bool := false
  /-- It reaches every replica (R145, R148). -/
  all : Bool := false
  /-- Watchpoints apply (R363). -/
  watched : Bool := true
  /-- It goes through the swizzled view (R127). -/
  swz : Bool := false
  /-- The multiple that its address must be, where that is not its width (R186); 0 for its width. -/
  unit : Nat := 0
  deriving DecidableEq, Repr

/-- Whether berth `b` may store to a window byte: a header byte of the frame area to no berth, a slot word to the berth
that the frame is bound to and to the supervisor berth (R237). -/
def State.mayStore (s : State) (t : Nat) (b : Fin 5) (off : Nat) : Bool :=
  let k := off - frameBase
  decide (off < frameBase) ||
    (decide (32 ≤ k % 160) && (b == 4 ||
      ((s.berth t b).frame.toNat == k / 160 && ((s.tile t).frame (k / 160)).st == .bound
        && ((s.berth t b).status == .bound))))

/-- The byte places of an access of `n` bytes, with every check of R131 made in the order of R349: translation,
permission, misalignment, tag mismatch, watchpoint; or the code, address and detail of the trap, or the address of a
table that no memory holds. -/
def State.checkAccess (s : State) (t : Nat) (b : Fin 5) (ea : Word) (n : Nat) (k : Access) :
    Except (Sum (Nat × Word × Word) Nat) (List Place) :=
  let inWin := eaWindow ea
  let rs := (List.range n).map fun i => (ea + BitVec.ofNat 64 i, s.placeOf t inWin k.all (ea + BitVec.ofNat 64 i))
  let xl : Option (Sum (Nat × Word × Word) Nat) := firstSome (fun (a, r) => match r with
    | .fault l c => some (Sum.inl (0x05, a, BitVec.ofNat 64 (l + c * 8)))
    | .hole pa => some (Sum.inr pa)
    | _ => none) rs
  let perm := firstSome (fun (a, r) => match r with
    | .outside => some (0x03, a, (0 : Word))
    | .at_ p =>
      if k.write && !p.win && !leafW p.leaf then some (0x03, a, (1 : Word))
      else if k.write && p.win && !s.mayStore t b ((if k.swz then View.swizzled else .linear).phys p.addr) then some (0x03, a, (0 : Word))
      else none
    | _ => none) rs
  let ps := rs.filterMap fun (_, r) => match r with
    | .at_ p => some p
    | _ => none
  let strict := k.aligned || ps.any fun p => !p.win && leafKind p.leaf == 1
  let tag := if !k.tagged then none else firstSome (fun p =>
    if p.win || !leafTchk p.leaf then none
    else
      let l := s.lockFor t b p k.home
      if wbits p.ea 59 56 = l.toNat then none else some (0x06, p.ea, s.tagDetail p.addr l)) ps
  let watch := if !k.write || !k.watched then none else firstSome (fun p =>
    (s.watchSlot t p).map fun w => (0x07, p.ea, BitVec.ofNat 64 w)) ps
  match xl with
  | some e => .error e
  | none =>
    match perm with
    | some e => .error (.inl e)
    | none =>
      if strict && ea.toNat % (if k.unit = 0 then n else k.unit) != 0 then .error (.inl (0x04, ea, BitVec.ofNat 64 n))
      else match tag with
        | some e => .error (.inl e)
        | none => match watch with
          | some e => .error (.inl e)
          | none => .ok ps

/-- The checks of a slot's access. -/
def SlotCtx.check (c : SlotCtx) (s : State) (ea : Word) (n : Nat) (k : Access) : Except SlotRes (List Place) :=
  match s.checkAccess c.t c.b ea n k with
  | .ok ps => .ok ps
  | .error (.inl (code, bad, det)) => .error (c.trap code bad det)
  | .error (.inr pa) => .error (.hole pa)

/-! ### The window (R129, R137) -/

/-- Bytes of the window read: `acc` is the berth that a view hazard is judged for, and `counts` says whether a hazard is counted. -/
def State.windowRead (s : State) (t : Nat) (acc : Option (Fin 5)) (v : View) (counts : Bool) (off n : Nat) : State × List Byte :=
  let x := s.tile t
  let (bs, hz) := x.viewRead s.fresh acc v off n
  let s := { s with fresh := s.fresh + n / 4 + 2 }
  let s := s.chargePad t (padLines off n)
  let x := s.tile t
  (s.setTile t { x with vhaz := if hz && counts then satInc x.vhaz 1 else x.vhaz }, bs)

/-- Bytes of the window written: `b` is the berth that the write belongs to, `src` its source at the scratchpad port. -/
def State.windowWrite (s : State) (t : Nat) (b : Fin 5) (src : MarkSrc) (v : View) (counts : Bool) (off : Nat) (bs : List Byte) : State :=
  let x := s.tile t
  let (x, hz) := x.viewWrite s.fresh src (some b) v off bs
  let s := { s with fresh := s.fresh + bs.length / 4 + 2 }
  let x := { x with vhaz := if hz && counts then satInc x.vhaz 1 else x.vhaz }
  (s.setTile t x).chargePad t (padLines off bs.length)

/-- A read-modify-write of `n` bytes of the window at the scratchpad bank: the old value. Its read and its write are one access, which
VHAZ counts once (R137, R143). -/
def State.windowRmw (s : State) (t : Nat) (b : Fin 5) (op : AmoOp) (off n : Nat) (x y : Word) : State × Nat :=
  let (s, bs) := s.windowRead t (some b) .linear true off n
  let old := leNat bs
  (s.windowWrite t b (.berth b) .linear false off (leBytes n (rmwNew op n old (x.toNat % 2 ^ (8 * n)) (y.toNat % 2 ^ (8 * n)))), old)

/-! ### Pieces (R130) -/

/-- The pieces of an access: the place of the first byte of each in the access, its place, and how many bytes it has; a piece ends at a 16-byte
boundary, and so at a page boundary. -/
def pieces : Nat → List Place → List (Nat × Place × Nat)
  | _, [] => []
  | off, p :: r =>
    match pieces (off + 1) r with
    | (o, q, n) :: l =>
      if q.ea.toNat / 16 = p.ea.toNat / 16 then (off, p, n + 1) :: l else (off, p, 1) :: (o, q, n) :: l
    | [] => [(off, p, 1)]

/-- The operation of one piece of an access. -/
def pieceOp (o : MemOp) (x : Nat × Place × Nat) : MemOp :=
  { o with ea := x.2.1.ea, n := x.2.2, off := x.1, win := x.2.1.win, leaf := x.2.1.leaf, key := x.2.1.addr }

/-- The operations of an access entered, one for each piece; of a store each takes its own bytes. -/
def State.pushPieces (s : State) (t : Nat) (o : MemOp) (ps : List Place) : State :=
  (pieces 0 ps).foldl (fun s x =>
    let o' := pieceOp o x
    s.pushOp t (match o.what with
      | .store bs => { o' with what := .store ((bs.drop x.1).take x.2.2) }
      | _ => o')) s

/-- Whether an access reaches global memory. -/
def anyGlobal (ps : List Place) : Bool := ps.any fun p => !p.win

/-- Whether an access of a berth to the window waits behind one in its own bundle that waits for a release. -/
def Tile.windowWaits (x : Tile) (b : Fin 5) : Bool := x.ops.any fun o => o.b == b && o.win && o.mac.isNone && o.access

/-! ### Accesses of slots (R45) -/

/-- An operation of a slot, under the identity that the next access takes. -/
def SlotCtx.op (c : SlotCtx) (s : State) (what : MemWhat) : MemOp := { id := s.uid, b := c.b, bind := (c.cur s).bind, what }

/-- The state once an access has taken its identity. -/
def State.nextId (s : State) : State := { s with uid := s.uid + 1 }

/-- A value that a slot has read, or the outstanding access that yields it. -/
inductive Loaded
  | now (bs : List Byte)
  | later (id : Nat)
  deriving DecidableEq, Repr

/-- Read(ea, n, kind) of a slot: a window access is performed at once, a global one becomes outstanding (R129, R133). -/
def SlotCtx.read (c : SlotCtx) (s : State) (v : View) (ps : List Place) : State × Loaded :=
  match ps with
  | [] => (s, .now [])
  | p :: _ =>
    if p.win && !(s.tile c.t).windowWaits c.b then
      let (s, bs) := s.windowRead c.t (some c.b) v true p.addr ps.length
      (s, .now bs)
    else ((s.pushPieces c.t { c.op s .load with swz := decide (v = .swizzled) } ps).nextId, .later s.uid)

/-- Write(ea, n, data, kind) of a slot. -/
def SlotCtx.write (c : SlotCtx) (s : State) (v : View) (ps : List Place) (bs : List Byte) : State :=
  match ps with
  | [] => s
  | p :: _ =>
    if p.win && !(s.tile c.t).windowWaits c.b then s.windowWrite c.t c.b (.berth c.b) v true p.addr bs
    else (s.pushPieces c.t { c.op s (.store bs) with swz := decide (v = .swizzled) } ps).nextId

/-- A number of `n` bytes as a result, sign-extended or not. -/
def resultOf (signed : Bool) (n x : Nat) : BitVec 512 := if signed then BitVec.ofInt 512 (toSigned (8 * n) x) else BitVec.ofNat 512 x

/-- Bytes `base` to `base + n - 1` of a read value landed at landing distance `l`. -/
def SlotCtx.landPart (c : SlotCtx) (s : State) (d : Dest) (x : Loaded) (base n : Nat) (signed : Bool) (l : Nat) : State :=
  match x with
  | .now bs => c.landWide s d (resultOf signed n (leNat ((bs.drop base).take n))) l 0 .here
  | .later id => c.landWide s d 0 l 0 (.memory id base n signed)

end Sys2Proof.Machine
end

