-- ==== Sys2Proof/Machine/Bank.lean ====
section
/-!
DEFINITION. Machine/Bank.lean: the event bank: posting and receiving events (R215, R330, R333, R334), applying them and
firing (R335, R336), claims (R339, R340), and the writes of ports that no berth makes (R137, R363).
-/
namespace Sys2Proof.Machine

/-! ### Writes at a scratchpad port (R137, R363) -/

/-- Bytes written at a scratchpad port by a writer of a class of R363, with record 0x1D for a watchpoint that they touch. -/
def State.portWrite (s : State) (t : Nat) (src : MarkSrc) (cls who : Nat) (v : View) (off : Nat) (bs : List Byte) :
    State :=
  let x := s.tile t
  let (x, _) := x.viewWrite s.fresh src none v off bs
  let s := ({ s with fresh := s.fresh + bs.length / 4 + 2 }).setTile t x
  let s := s.chargePad t (padLines off bs.length)
  match (s.jobOf t).watchHit false off bs.length with
  | some k => s.postWatch x.job.toNat t off k cls who
  | none => s

/-! ### Ticks (R327) -/

/-- Whether a timestamp is at or below a tick. -/
def atOrBelow (ts t : BitVec 32) : Bool := decide ((t - ts).toNat < 2 ^ 31)

/-- Whether an event waits to be applied. -/
def Bank.due (k : Bank) : Bool := k.q.any fun e => atOrBelow e.ts k.t

/-- The bank with its tick advanced; F stays while an earlier advance is still in progress (R333). -/
def Bank.advance (k : Bank) (t : BitVec 32) : Bank := { k with first := if k.due then k.first else k.t + 1, t }

/-- Whether one event precedes another in key order (R333); late events of a tick follow the others in the order of their
arrival (R334, log entry 30). -/
def Ev.before (first : BitVec 32) (a b : Ev) : Bool :=
  let ka := (a.ts - first).toNat
  let kb := (b.ts - first).toNat
  if ka ≠ kb then decide (ka < kb)
  else match a.late, b.late with
    | none, some _ => true
    | some _, none => false
    | some i, some j => decide (i < j)
    | none, none =>
      if a.ltn ≠ b.ltn then decide (a.ltn.toNat < b.ltn.toNat)
      else decide (0 < (b.seq - a.seq).toNat) && decide ((b.seq - a.seq).toNat < 2 ^ 31)

/-- The event with the least key among those that are due. -/
def Bank.next (k : Bank) : Option Ev :=
  (k.q.filter fun e => atOrBelow e.ts k.t).foldl (fun a e =>
    match a with
    | none => some e
    | some b => if e.before k.first b then some e else some b) none

/-! ### Entries and parameter sets (R331, R332) -/

/-- Entry `i`. -/
def Bank.entry (k : Bank) (i : Nat) : Neuron := SMap.get {} k.entries i
/-- The bank with an entry replaced. -/
def Bank.setEntry (k : Bank) (i : Nat) (n : Neuron) : Bank := { k with entries := SMap.set {} k.entries i n }

/-- An entry as it is read at a tick (R331). -/
def Neuron.word (n : Neuron) (t : BitVec 32) : Word :=
  BitVec.ofNat 64 (b2n n.ref * 2 ^ 63 + b2n n.fired * 2 ^ 62 + b2n n.sat * 2 ^ 61 + n.set.toNat * 2 ^ 48
    + min (t - n.u).toNat 65535 * 2 ^ 32 + n.pot.toNat)

/-- The entry that EVCFG writes at a tick: U := T − TSU (R331). -/
def Neuron.ofWord (w : Word) (t : BitVec 32) : Neuron :=
  { ref := wbit w 63, fired := wbit w 62, sat := wbit w 61, set := w.extractLsb' 48 6, pot := w.extractLsb' 0 32,
    u := t - (w.extractLsb' 32 16).setWidth 32 }

/-- Word `i` of a parameter set. -/
def psetWord (p : BitVec 256) (i : Nat) : Word := p.extractLsb' (64 * i) 64
/-- The parameter set of an entry. -/
def Bank.psetOf (k : Bank) (n : Neuron) : BitVec 256 := k.psets.get n.set.toFin

/-- RoundNE to an integer of x / 2^16. -/
def round16 (x : Int) : Int := signed (decide (x < 0)) (roundShift x.natAbs 16 false).1

/-- The factor of Leak after `n` further bits of the exponent (R335). -/
def leakFactor : Nat → Nat → Nat → Nat → Nat
  | 0, r, _, _ => r
  | n + 1, r, b, d =>
    let r := if d % 2 = 1 then (roundShift (r * b) 16 false).1 else r
    let b := if d / 2 = 0 then b else (roundShift (b * b) 16 false).1
    leakFactor n r b (d / 2)

/-- Leak(v, λ, d) (R335). -/
def leak (v : Int) (lam d : Nat) : Int := round16 (v * leakFactor 16 0x10000 lam d)

/-- A potential after Δ ticks under a parameter set. -/
def leaked (p : BitVec 256) (v : Int) (d : Nat) : Int :=
  let w := psetWord p 0
  if wbit w 16 then v else leak v (wbits w 15 0) d

/-- A potential clamped to its format, and whether it was. -/
def clampPot (v : Int) : Int × Bool := let c := clampInt 32 false v; (c, c != v)

/-- Δ of an entry at a timestamp. -/
def Neuron.since (n : Neuron) (ts : BitVec 32) : Nat := min (ts - n.u).toNat 65535

/-! ### Receiving an event (R330, R333, R334) -/

/-- An event as it is posted. -/
structure Post where
  pop : BitVec 24
  neuron : BitVec 20
  ts : BitVec 32
  w : BitVec 32
  ltn : BitVec 17
  seq : BitVec 32
  /-- Whether the receiving tile's own bank posted it through fan-out. -/
  own : Bool
  deriving DecidableEq, Repr

/-- The population name of a post. -/
def Post.name (p : Post) : Word := mkName p.pop 0 p.neuron

/-- Record 0x16 or 0x17 at a tile (R360). -/
def State.postDrop (s : State) (t typ : Nat) (name : Word) (w ts : BitVec 32) (reason : Nat) : State :=
  s.postJob (s.tile t).job.toNat
    { s.jobRec t typ with w4 := name, w5 := w.setWidth 64, w6 := ts.setWidth 64, w7 := BitVec.ofNat 64 reason }

/-- The entry that a bank's windows give a neuron (R330). -/
def Bank.window (k : Bank) (pop : BitVec 24) (n : BitVec 20) : Option (BitVec 13) :=
  firstSome (fun i =>
    let l := k.wl.getD i 0
    let h := k.wh.getD i 0
    if wbit l 63 && wbits l 55 32 == pop.toNat && decide (wbits l 19 0 ≤ n.toNat)
        && decide (n.toNat < wbits l 19 0 + wbits h 26 13) then
      some (BitVec.ofNat 13 (wbits h 12 0 + (n.toNat - wbits l 19 0)))
    else none) [0, 1, 2, 3]

/-- Whether the queue has a place for an event (R333). -/
def Bank.room (k : Bank) (own : Bool) : Bool :=
  decide (k.q.length < 4096) && (own || decide ((k.q.filter fun e => !e.own).length < 3584))

/-- The answer to a claim (R340), on its way to the claim's origin. The packet also carries the population, which the
origin needs and the rule places nowhere (log entry 30). -/
def State.answerClaim (s : State) (t : Nat) (e : Ev) (ok : Bool) : State :=
  (s.inject t noIssuer
    { typ := 9, vc := 3, name := mkName 0xFFFFFF 0 (if ok then 1 else 0), tag := e.ts, aux := e.w,
      dest := e.ltn, dmod := s.modid, row1 := e.pop.extractLsb' 20 4 |>.setWidth 20, col1 := e.pop.extractLsb' 0 20 }).1

/-- An event at its bank: its window is found, a late one is counted, and it is queued. The answer says whether the bank
took it: one that finds its share of the queue full waits (R333). -/
def State.receiveEvent (s : State) (t : Nat) (p : Post) : State × Bool :=
  let x := s.tile t
  let k := x.bank
  match k.window p.pop p.neuron with
  | none =>
    let s := s.setTile t { x with bank := { k with drop := satInc k.drop 1 },
                                  latev := if atOrBelow p.ts k.t then satInc x.latev 1 else x.latev }
    (s.postDrop t 0x16 p.name p.w p.ts 2, true)
  | some en =>
    let late := atOrBelow p.ts k.t
    let ev : Ev := { ts := p.ts, ltn := p.ltn, seq := p.seq, entry := en, neuron := p.neuron, w := p.w, own := p.own,
                     pop := p.pop, late := none }
    let claim := wbit (psetWord (k.psetOf (k.entry en.toNat)) 0) 17
    if late && k.late then
      let s := s.setTile t { x with latev := satInc x.latev 1 }
      (if claim then s.answerClaim t ev false else s, true)
    else if !k.room p.own then
      if p.own then
        let s := s.setTile t { x with bank := { k with drop := satInc k.drop 1 },
                                      latev := if late then satInc x.latev 1 else x.latev }
        (s.postDrop t 0x17 p.name p.w p.ts 0, true)
      else (s, false)
    else
      let order := k.q.foldl (fun a e => match e.late with | some i => max a (i + 1) | none => a) 0
      let ev := if late then { ev with ts := k.t, late := some order } else ev
      (s.setTile t { x with bank := { k with q := k.q ++ [ev] },
                            latev := if late then satInc x.latev 1 else x.latev }, true)

/-! ### Posting an event (R215, R330) -/

/-- An event posted by tile `t`: to its own bank at once, to another tile by an EVENT packet; without a neuron it is
recorded and nothing is sent. -/
def State.postEvent (s : State) (t : Nat) (who : Issuer) (name : Word) (ts w : BitVec 32) (own : Bool) : State :=
  let pop := nameTens name
  let n := (nameCol name).toNat
  match s.findPop (s.tile t).job.toNat pop with
  | none => s.postDrop t 0x16 name w ts 1
  | some p =>
    if p.neur.toNat < n then s.postDrop t 0x16 name w ts 1
    else
      let dest := p.list.getD (n / p.per.toNat) 0
      let pk : Packet := { typ := 9, vc := 3, name, tag := ts, aux := w, dest, dmod := s.modid }
      if dest.toNat = t then
        let x := s.tile t
        let (s', ok) := (s.setTile t { x with oseq := x.oseq + 1 }).receiveEvent t
          { pop, neuron := nameCol name, ts, w, ltn := BitVec.ofNat 17 t, seq := x.oseq, own }
        if ok then s' else (s.inject t who pk).1
      else (s.inject t who pk).1

/-! ### Firing (R336) -/

/-- FLIST and FCNT of a parameter set with a fan-out. -/
def fanList (p : BitVec 256) : Nat × Nat := (wbits (psetWord p 3) 18 0, wbits (psetWord p 3) 30 19)
/-- ACT of a parameter set. -/
def psetAct (p : BitVec 256) : Nat := wbits (psetWord p 2) 3 2

/-- One entry of a fan-out list posted. -/
def State.fanEntry (s : State) (t : Nat) (ts : BitVec 32) (a : Nat) : State :=
  let (bs, _) := (s.tile t).viewRead s.fresh none .linear a 16
  let s := { s with fresh := s.fresh + 6 }
  let name := BitVec.ofNat 64 (leNat (bs.take 8))
  let w := BitVec.ofNat 64 (leNat (bs.drop 8))
  let delay := max (wbits w 47 32) 1
  let ts' := ts + BitVec.ofNat 32 delay
  if wbits name 39 20 ≠ 0 ∨ wbits w 63 48 ≠ 0 then s.postDrop t 0x16 name (w.setWidth 32) ts' 3
  else s.postEvent t noIssuer name ts' (w.setWidth 32) true

/-- The fire action of an entry with a firing word (R336). -/
def State.fireAction (s : State) (t : Nat) (p : BitVec 256) (neuron : BitVec 20) (ts : BitVec 32) : State :=
  let word : Word := 0#12 ++ ts ++ neuron
  let arg := psetWord p 3
  match psetAct p with
  | 0 =>
    let (list, n) := fanList p
    (List.range n).foldl (fun s i => s.fanEntry t ts (list + 16 * i)) s
  | 1 =>
    let x := s.tile t
    s.setTile t { x with fills := x.fills ++
      [{ frame := arg.extractLsb' 0 8, slot := arg.extractLsb' 8 4, value := word, kind := .firing, origin := none }] }
  | _ =>
    let x := s.tile t
    let m : Msg := { uid := s.uid, strm := false, name := mkName (arg.extractLsb' 0 24) neuron 0,
                     tag := arg.extractLsb' 24 12 ++ ts.extractLsb' 0 20, head := none, src := 0, len := 32,
                     bytes := some (leBytes 32 word.toNat), sseq := 0, who := noIssuer }
    { s.setTile t { x with qEgress := x.qEgress ++ [.msg m] } with uid := s.uid + 1 }

/-! ### Applying an event (R335, R339) -/

/-- What an event makes of an entry: the entry, whether it fires, and the answer to a claim. -/
def applyToEntry (fresh : Nat) (p : BitVec 256) (n : Neuron) (ts w : BitVec 32) : Neuron × Bool × Option Bool :=
  let thr := toSigned 32 (psetWord p 1).toNat
  let v0 := toSigned 32 n.pot.toNat
  if wbit (psetWord p 0) 17 then
    if v0 < thr ∧ w.toNat / 2 ^ 26 = 0 then
      let v := v0 + 0x10000
      let pot := if (clampPot v).2 then Config.fullPotential fresh else BitVec.ofInt 32 v
      let fires := decide (thr ≤ v)
      ({ n with pot, u := ts, fired := n.fired || fires }, fires, some true)
    else (n, false, some false)
  else
    let d := n.since ts
    let refr := wbits (psetWord p 2) 19 4
    if n.ref && decide (d < refr) then (n, false, none)
    else
      let (v, sat) := clampPot (leaked p v0 d + toSigned 32 w.toNat)
      let n := { n with ref := false, u := ts, sat := n.sat || sat }
      if thr ≤ v then
        let (v, sat) := if wbits (psetWord p 2) 1 0 = 0 then (0, false) else clampPot (v - thr)
        ({ n with pot := BitVec.ofInt 32 v, sat := n.sat || sat, fired := true, ref := decide (0 < refr) }, true, none)
      else ({ n with pot := BitVec.ofInt 32 v }, false, none)

/-- The event with the least key applied; none when no event is due, or its firing's publication finds the egress queue
full (R333, R336). -/
def State.applyEvent (s : State) (t : Nat) : Option State :=
  let x := s.tile t
  match x.bank.next with
  | none => none
  | some e =>
    let n := x.bank.entry e.entry.toNat
    let p := x.bank.psetOf n
    let (n', fires, ans) := applyToEntry s.fresh p n e.ts e.w
    if fires && decide (2 ≤ psetAct p) && x.queueFull 6 then none
    else
      let k := { x.bank with q := x.bank.q.erase e }
      let s := ({ s with fresh := s.fresh + 1 }).setTile t { x with bank := k.setEntry e.entry.toNat n' }
      let s := s.charge (fieldOf t) 12 x.job.toNat 1
      let s := if fires then s.fireAction t p e.neuron e.ts else s
      some (match ans with | some ok => s.answerClaim t e ok | none => s)

/-- Due events applied, at most `n` of them. -/
def State.applyDue (s : State) (t : Nat) : Nat → State
  | 0 => s
  | n + 1 =>
    match s.applyEvent t with
    | some s' => s'.applyDue t n
    | none => s

/-- The bank of a tile advanced to a tick, and every queued event at or below it applied (R218, R324). -/
def State.advanceBank (s : State) (t : Nat) (tick : BitVec 32) : State :=
  let x := s.tile t
  (s.setTile t { x with bank := x.bank.advance tick }).applyDue t (2 ^ 40)

end Sys2Proof.Machine
end

