-- ==== Sys2Proof/Machine/Fetch.lean ====
section
/-!
DEFINITION. Machine/Fetch.lean: fetching a bundle (R15 to R17), its slots as the checks of R44 see them, and those checks
(steps 1 to 5; R435).
-/
namespace Sys2Proof.Machine

/-! ### Framing (R15, R16) -/

/-- The slot word at an address, as the issuing berth fetches it; none outside the scratchpad window. The fetch of bytes
that no join covers gives the old or the new word of each slot (R137). -/
def State.fetchWord (s : State) (t : Nat) (b : Fin 5) (k : Nat) (a : Word) : Option SlotWord :=
  (windowRun a 4).map fun off =>
    BitVec.ofNat 32 (leNat ((s.tile t).viewRead (s.fresh + k) (some b) .fetch off 4).1)

/-- The slot words of the bundle from slot `k + 1` on, `n` slots being left, or the reason of R348. -/
def State.fetchSlots (s : State) (t : Nat) (b : Fin 5) (ip : Word) : Nat → Nat → Except Nat (List SlotWord)
  | 0, _ => .error 2
  | n + 1, k =>
    match s.fetchWord t b k (ip + BitVec.ofNat 64 (4 * k)) with
    | none => .error 3
    | some w =>
      if fEnd w then (if k < 3 then .error 1 else .ok [w])
      else match s.fetchSlots t b ip n (k + 1) with
        | .ok ws => .ok (w :: ws)
        | .error r => .error r

/-- The bundle at an address (R15), or the reason why it is malformed (R16). -/
def State.fetchBundle (s : State) (t : Nat) (b : Fin 5) (ip : Word) : Except Nat (List SlotWord) :=
  match windowRun ip 4 with
  | none => .error 3
  | some _ => if ip.toNat % 4 ≠ 0 then .error 4 else s.fetchSlots t b ip 8 0

/-- The address after the bundle at an address; one that is malformed is taken as four slots (log entry 24). -/
def State.nextBundle (s : State) (t : Nat) (b : Fin 5) (ip : Word) : Word :=
  match s.fetchBundle t b ip with
  | .ok ws => ip + BitVec.ofNat 64 (4 * ws.length)
  | .error _ => ip + 16

/-! ### The slots of a bundle -/

/-- One slot as the checks see it. -/
structure Slot where
  /-- The instruction; none for a word that stands for none (R44 step 3). -/
  ins : Option Instr
  form : Form
  deriving DecidableEq, Repr

/-- The class of a major opcode (R47). -/
def majorClass (maj : Nat) : Option Cls :=
  if maj ≤ 7 || maj = 16 then some .c
  else if maj ≤ 14 then some .s
  else if maj = 15 then some .f
  else if maj ≤ 23 then some .l
  else if maj ≤ 26 then some .v
  else if maj = 27 then some .m
  else if maj ≤ 29 then some .n
  else none

/-- Whether a major has the RI or the MO shape (R27, R47). -/
def majorImm (maj : Nat) : Bool :=
  (decide (9 ≤ maj) && decide (maj ≤ 14)) || maj == 17 || maj == 19 || maj == 20

/-- The fields of a word that a cell may reserve, from the least to the most of D, A, B and the high half of MIN (R25, R48). -/
def clearings : List SlotWord :=
  ([0, 0xF0] : List SlotWord).flatMap fun h => ([0, 1 <<< 25, 3 <<< 24, 7 <<< 23, 0x3F <<< 20] : List SlotWord).flatMap fun d =>
    ([0, 1 <<< 19, 7 <<< 17, 0x3F <<< 14] : List SlotWord).flatMap fun a => ([0, 1 <<< 13, 0x3F <<< 8] : List SlotWord).map fun b =>
      h ||| d ||| a ||| b

/-- The instruction of a word's cell when what the word lacks to be one is zeros in reserved fields (R48). -/
def cellOf (w : SlotWord) : Option Instr :=
  match decode w with
  | .error .reservedBits => clearings.findSome? fun m => (decode (w &&& ~~~m)).toOption
  | _ => none

/-- The form by which a word that stands for no instruction is counted at step 2: that of its cell when reserved bits alone are wrong; for an
unassigned cell that of a cell of its major (R47), which writes no register (log entry 25). -/
def badForm (w : SlotWord) : Form :=
  match cellOf w with
  | some i => Machine.form i
  | none =>
    let maj := (fMaj w).toNat
    if maj = 0 && fMin w == 0 then {}
    else { cls := majorClass maj, imm := majorImm maj,
           d := if maj = 8 || maj = 13 || maj = 14 || maj = 15 then some (fD w) else none }

/-- The slot of a word. -/
def Slot.ofWord (w : SlotWord) : Slot :=
  match decode w with
  | .ok i => { ins := some i, form := Machine.form i }
  | .error _ => { ins := none, form := badForm w }

/-- The slot of an instruction. -/
def Slot.ofInstr (i : Instr) : Slot := { ins := some i, form := Machine.form i }

/-! ### Step 2 (R28, R29, R33, R435) -/

/-- How many slots of a class a bundle holds at most, and how many of one cluster (R29). -/
def Cls.limit : Cls → Nat × Nat
  | .s => (4, 2)
  | .f => (2, 1)
  | .c => (1, 1)
  | .l => (2, 2)
  | .v => (2, 2)
  | .m => (1, 1)
  | .n => (1, 1)
  | .imx => (2, 2)

/-- Whether a slot goes beyond its class's limits, given the lower slots. -/
def classOver (before : List Slot) (x : Slot) : Bool :=
  match x.form.cls with
  | none => false
  | some k =>
    let same := before.filter fun y => y.form.cls == some k
    let (most, each) := k.limit
    decide (most ≤ same.length)
      || decide (each ≤ (same.filter fun y => y.form.cluster == x.form.cluster).length) && (k == .s || k == .f)

/-- Whether a register's double write is exempt: g0 and p0 (R33). -/
def WReg.exempt : WReg → Bool
  | .g r => r == 0
  | .p r => r == 0
  | _ => false

/-- Whether a slot writes a register that a lower slot writes (R33). -/
def writesTwice (before : List Slot) (x : Slot) : Bool :=
  x.form.writes.any fun r => !r.exempt && before.any fun y => y.form.writes.contains r

/-- Whether an IMX is misplaced: it closes the bundle, or the next slot takes no immediate (R28). -/
def imxBad (x : Slot) (after : List Slot) : Bool :=
  x.form.cls == some .imx && match after with
    | [] => true
    | y :: _ => !y.form.imm

/-- The lowest slot that offends at step 2, with the lowest of its reasons. -/
def step2 (before : List Slot) : List Slot → Option (Nat × Nat)
  | [] => none
  | x :: r =>
    if classOver before x then some (before.length + 1, 5)
    else if imxBad x r then some (before.length + 1, 6)
    else if writesTwice before x then some (before.length + 1, 7)
    else step2 (before ++ [x]) r

/-! ### Steps 3 to 5 -/

/-- The number of the first slot that satisfies a test. -/
def firstSlot (p : Slot → Bool) : Nat → List Slot → Option Nat
  | _, [] => none
  | k, x :: r => if p x then some k else firstSlot p (k + 1) r

/-- Whether a bundle of a berth may hold a transfer where it stands: neither it nor either of the two bundles after it
ends an active loop (R118). -/
def State.loopPlacement (s : State) (t : Nat) (b : Fin 5) (next : Word) : Bool :=
  let y := s.berth t b
  if y.loops.isEmpty then true
  else
    let n2 := s.nextBundle t b next
    let n3 := s.nextBundle t b n2
    y.loops.all fun l => l.exit != next && l.exit != n2 && l.exit != n3

/-- Whether a slot breaks step 4: the cluster rule, LAND = 0, an odd D, or the delay-bundle and loop-placement rules. -/
def step4Bad (delay place : Bool) (x : Slot) : Bool :=
  !x.form.clusterOk
    || x.form.land == some 0
    || (x.form.odd && (x.form.d.map fun d => d.toNat % 2 == 1) == some true)
    || (delay && x.form.noDelay)
    || (!place && x.form.transfer)

/-- The trap of steps 2 to 5 of R44, if one is raised. -/
def State.checkBundle (s : State) (t : Nat) (b : Fin 5) (baddr next : Word) (xs : List Slot) : Option TrapRec :=
  match step2 [] xs with
  | some (k, r) => some (mkTrap 0x01 k baddr (BitVec.ofNat 64 r) baddr)
  | none =>
    match firstSlot (fun x => x.ins.isNone) 1 xs with
    | some k => some (mkTrap 0x02 k baddr 0 baddr)
    | none =>
      let place := !(xs.any fun x => x.form.transfer) || s.loopPlacement t b next
      match firstSlot (step4Bad (s.berth t b).xfer.isSome place) 1 xs with
      | some k => some (mkTrap 0x02 k baddr 0 baddr)
      | none =>
        match firstSlot (fun x => x.form.sup && b != 4) 1 xs with
        | some k => some (mkTrap 0x03 k 0 2 baddr)
        | none => none

end Sys2Proof.Machine
end

