-- ==== Sys2Proof/Machine/Control.lean ====
section
/-!
DEFINITION. Machine/Control.lean: transfers (R41, R113), loops (R115, R116), counter chains (R122), ending and trapping
(R123, R124), and the system instructions (R220 to R224, R354).
-/
namespace Sys2Proof.Machine

/-- NOP (R52). -/
def slotNop (_c : SlotCtx) (s : State) : SlotRes := .ok s

/-! ### Transfers (R41, R113, R118) -/

/-- A transfer decided: its target when it is taken, and its two delay bundles to come. -/
def SlotCtx.transferTo (c : SlotCtx) (s : State) (target : Option Word) (endsLoops : Bool) : SlotRes :=
  .ok (c.upd s fun y => { y with xfer := some { target, left := 3, endsLoops, eret := false } })

/-- A conditional branch (R113). -/
def SlotCtx.branch (c : SlotCtx) (s : State) (taken : Bool) (d : Disp) : SlotRes :=
  c.transferTo s (if taken then some (c.target d) else none) true

/-- JMPI (R113). -/
def slotJmpi (a : GReg) (c : SlotCtx) (s : State) : SlotRes := c.transferTo s (some (c.g a)) false

/-- RET (R113). -/
def slotRet (a : GReg) (c : SlotCtx) (s : State) : SlotRes := c.transferTo s (some (c.g a)) false

/-- BR (R113). -/
def slotBr (d : Disp) (c : SlotCtx) (s : State) : SlotRes := c.branch s true d

/-- CALL: the link, the address of the bundle after the second delay bundle, lands in gD in 1 bundle (R113). -/
def slotCall (d : GReg) (disp : Disp) (c : SlotCtx) (s : State) : SlotRes :=
  let link := s.nextBundle c.t c.b (s.nextBundle c.t c.b c.next)
  c.transferTo (c.land s d link 1 0) (some (c.target disp)) false

/-- JMP: to the window base plus DISP × 4 (R54). -/
def slotJmp (d : Disp) (c : SlotCtx) (s : State) : SlotRes :=
  c.transferTo s (some (BitVec.ofNat 64 wbase + d.signExtend 64 * 4)) true

/-- BRN.z (R113). -/
def slotBrnZ (d : GReg) (disp : Disp) (c : SlotCtx) (s : State) : SlotRes := c.branch s (c.g d == 0) disp

/-- BRN.nz (R113). -/
def slotBrnNz (d : GReg) (disp : Disp) (c : SlotCtx) (s : State) : SlotRes := c.branch s (c.g d != 0) disp

/-- Whether a BRN.p condition holds of a predicate register (R54). -/
def condHolds (k : PCond) (x : Word) : Bool :=
  match k with
  | .p => wbit x 0
  | .np => !wbit x 0
  | .any => x != 0
  | .none => x == 0

/-- BRN.p, .np, .any and .none (R54). -/
def slotBrnP (k : PCond) (p : PReg) (disp : Disp) (c : SlotCtx) (s : State) : SlotRes :=
  c.branch s (condHolds k (c.p p)) disp

/-! ### Loops (R115, R116) -/

/-- LOOP and LOOPI with a count (R116). -/
def SlotCtx.openLoop (c : SlotCtx) (s : State) (count : Word) (disp : Disp) : SlotRes :=
  let ls := c.pre.loops
  let exit := c.target disp
  let past := match ls with
    | l :: _ => l.exit.ult exit
    | [] => false
  if !c.next.ult exit || decide (4 ≤ ls.length) || past || ls.any fun l => l.exit == c.next then c.illegal 0
  else if count = 0 then .ok (c.upd s fun y => { y with after := .jump exit })
  else .ok (c.upd s fun y => { y with loops := { start := c.next, exit, count, lc := 0 } :: ls })

/-- LOOP: the count is gD (R116). -/
def slotLoop (d : GReg) (disp : Disp) (c : SlotCtx) (s : State) : SlotRes := c.openLoop s (c.g d) disp

/-- LOOPI: the count is D + 1 (R116). -/
def slotLoopi (n : BitVec 6) (disp : Disp) (c : SlotCtx) (s : State) : SlotRes :=
  c.openLoop s (BitVec.ofNat 64 (n.toNat + 1)) disp

/-! ### Counter chains (R122) -/

/-- The tile with a chain replaced. -/
def Tile.setChain (x : Tile) (k : BitVec 2) (y : Chain) : Tile := { x with chains := x.chains.set k.toNat y k.isLt }

/-- KCHAIN: checks chain A[1:0] and starts it with first tag B[31:0] (R122, R248). -/
def slotKchain (a b : GReg) (c : SlotCtx) (s : State) : SlotRes :=
  let k : BitVec 2 := (c.g a).extractLsb' 0 2
  let x := s.tile c.t
  let y := x.chains.get k.toFin
  let ok := match s.tmpl c.t y.ctmpl with
    | some m => decide (y.islot.toNat < m.nslot.toNat) && !m.list.isEmpty && m.kind y.islot.toNat == 2
    | none => false
  if y.run || !ok then c.illegal 0
  else .ok (s.setTile c.t (x.setChain k { y with ctag := (c.g b).extractLsb' 0 32, cpos := 0, cemit := 0, done := false,
                                                 run := true }))

/-! ### Ending and trapping (R123, R124, R223, R354) -/

/-- The bundle's effect after it has retired. -/
def SlotCtx.afterwards (c : SlotCtx) (s : State) (a : After) : SlotRes := .ok (c.upd s fun y => { y with after := a })

/-- YIELD (R123). The supervisor berth has no binding to end (log entry 26). -/
def slotYield (c : SlotCtx) (s : State) : SlotRes := if c.b = 4 then .ok s else c.afterwards s .yield

/-- DONE (R123). -/
def slotDone (c : SlotCtx) (s : State) : SlotRes := if c.b = 4 then .ok s else c.afterwards s .done

/-- The current trap record posted by the supervisor's TRAP (R354, R360); nothing while no trap is handled. -/
def State.postCurrent (s : State) (t : Nat) (g : Word) : State :=
  let x := s.tile t
  match x.handling with
  | none => s
  | some b =>
    s.postJob x.job.toNat { s.bindRec t b (wbits x.scause 7 0) with
      addr := BitVec.ofNat 64 (wbits x.sberth 29 11), w4 := x.scause, w5 := x.sbad, w6 := x.sdet, w7 := g }

/-- TRAP (R124); in the supervisor berth it posts the current trap record (R354). -/
def slotTrap (a : GReg) (c : SlotCtx) (s : State) : SlotRes :=
  if c.b = 4 then .ok (s.postCurrent c.t (c.g a)) else c.afterwards s (.softTrap (c.g a))

/-- BRK (R223). -/
def slotBrk (a : GReg) (c : SlotCtx) (s : State) : SlotRes := c.afterwards s (.breakpoint (c.g a))

/-! ### System (R221, R222, R224) -/

/-- WFE: clears the wait latch, which is set when the bundle issues (R221); barriers that have completed, though their notices are still on
the way, order the accesses that follow (R294). -/
def slotWfe (c : SlotCtx) (s : State) : SlotRes :=
  let mine := s.notices.filter fun w => w.t == c.t && w.b == c.b && w.bind == (c.cur s).bind
  let s := mine.foldl (fun s w => s.acquire c.t c.b (if w.win then .tile else .sys)) s
  .ok (c.upd s fun y => { y with latch := false })

/-- SYS: a request record to the job's service queue (R222). -/
def slotSys (a b : GReg) (c : SlotCtx) (s : State) : SlotRes :=
  .ok (s.postQueue (s.jobOf c.t).sq { s.bindRec c.t c.b 0x30 with w4 := c.g a, w5 := c.g b })

/-- ERET: a transfer whose effect follows its delay bundles (R224, R353). -/
def slotEret (c : SlotCtx) (s : State) : SlotRes :=
  .ok (c.upd s fun y => { y with xfer := some { target := none, left := 3, endsLoops := false, eret := true } })

/-- A tile without the translations of a job that a test picks; answers on their way that may hold one find no request any more. -/
def Tile.dropTlb (x : Tile) (job : BitVec 12) (page : Option Nat) : Tile :=
  { x with tlb := x.tlb.filter fun e => !(match page with | some va => e.covers job va | none => e.job == job),
           misses := x.misses.map fun k =>
             if k.m.job == job && (match page with | some va => k.m.vpage == va / 65536 | none => true) then { k with tid := none } else k }

/-- Every spur translation cache without them. -/
def State.dropSpurTc (s : State) (job : BitVec 12) (page : Option Nat) : State :=
  { s with spurs := s.spurs.map fun kv =>
      (kv.1, { kv.2 with tc := kv.2.tc.filter fun e =>
        !(match page with | some va => e.covers job va | none => e.job == job) }) }

/-- TLBI: the extent is B[1:0] (R224). -/
def slotTlbi (a b : GReg) (c : SlotCtx) (s : State) : SlotRes :=
  let e := wbits (c.g b) 1 0
  if wbits (c.g b) 63 2 ≠ 0 then c.badOperand (c.g b)
  else
    let job := (s.tile c.t).job
    let page := if e % 2 = 0 then some (eaVa (c.g a)) else none
    if e < 2 then .ok (s.setTile c.t ((s.tile c.t).dropTlb job page))
    else
      let s := { s with tiles := s.tiles.map fun (kv : Nat × Tile) => (kv.1, if kv.2.job = job then kv.2.dropTlb job page else kv.2) }
      .ok (s.dropSpurTc job page)

/-- TPRE: job berth A[1:0] stops, its macros are stopped, and its save begins with a release (R224, R295, R366, R436). -/
def slotTpre (a : GReg) (c : SlotCtx) (s : State) : SlotRes :=
  let k := wbits (c.g a) 1 0
  let b : Fin 5 := ⟨k % 4, by omega⟩
  if (s.berth c.t b).status = .bound then
    let x := (s.tile c.t).stopMacros b .stopped
    .ok ((s.setTile c.t (x.setBerth b { x.berths[b] with status := .preSaving })).pushRelease c.t b (s.saveScope c.t))
  else .ok s

/-- HALT (R224, R405). -/
def slotHalt (c : SlotCtx) (s : State) : SlotRes := c.afterwards s .halt

end Sys2Proof.Machine
end

