-- ==== Sys2Proof/Machine/Energy.lean ====
section
/-!
DEFINITION. Machine/Energy.lean: the clock of a field (R412) and its energy (R413 to R415): the addition of every 256 cycles, and the windows.
-/
namespace Sys2Proof.Machine

/-- Whole mJ of an amount of energy (R413). -/
def wholeMj (n : Nat) : Nat := n / 2 ^ 32

/-- A field's SOFT and HARD, the cairn controller's holds included (R415, R432, R433). -/
def Field.isSoft (f : Field) : Bool := f.soft || f.holdSoft
/-- The hard indication. -/
def Field.isHard (f : Field) : Bool := f.hard || f.holdHard || f.holdHeat

/-- The enabled tiles of a field that are not retired and have no power (R413, R434). -/
def State.gatedTiles (s : State) (f : Nat) : Nat :=
  ((List.range 1088).filter fun i => s.enabled (2048 * f + i) && !(s.tile (2048 * f + i)).retired && !(s.tile (2048 * f + i)).powered).length

/-- Classes 0 and 1 charged for a number of cycles of every tile of a field (R413). -/
def State.leak (s : State) (f n : Nat) : State :=
  let s' := s.tiles.foldl (fun (z : State) (kx : Nat × Tile) =>
    if fieldOf kx.1 = f ∧ kx.2.powered then z.charge f 0 kx.2.job.toNat n else z) s
  s'.charge f 1 0 (n * s.gatedTiles f)

/-- A field with one class's activity of one job added to its energy. -/
def Field.addActivity (f : Field) (kn : Nat × Nat) : Field :=
  let e := kn.2 * (Config.energyCoef (kn.1 / 4096)).toNat
  let j := kn.1 % 4096
  { f with energy := f.energy + e,
           jobEnergy := if j = 0 then f.jobEnergy else SMap.set 0 f.jobEnergy j (SMap.get 0 f.jobEnergy j + e) }

/-- Whether an amount of energy reaches a limit in mJ; 0 is none. -/
def reaches (e : Nat) (lim : BitVec 32) : Bool := lim != 0 && decide (lim.toNat * 2 ^ 32 ≤ e)

/-- The activity of a field added to its energy, and the flags set whose limits the window's energy reaches (R413, R415). -/
def State.addEnergy (s : State) (f : Nat) : State :=
  let y := s.field f
  let x := { y.activity.foldl Field.addActivity y with activity := [] }
  let win := x.energy - x.energyBase
  let jobWin (j : Nat) : Nat := SMap.get 0 x.jobEnergy j - SMap.get 0 x.jobBase j
  let newOver := (s.jobs.filter fun kj => reaches (jobWin kj.1) kj.2.elim && !x.overJobs.contains (BitVec.ofNat 12 kj.1)).map
    fun kj => BitVec.ofNat 12 kj.1
  s.setField f { x with soft := x.soft || reaches win x.esoft, hard := x.hard || reaches win x.ehard, overJobs := x.overJobs ++ newOver }

/-- A field at the first cycle of an energy window: every flag clears, and EWIN takes effect (R415). -/
def Field.newWindow (x : Field) : Field :=
  { x with wlog := x.ewin, energyBase := x.energy, jobBase := x.jobEnergy, soft := false, hard := false, overJobs := [] }

/-- A field's clock gone on to cycle `c`: with every 256 cycles the tiles' own cycles are charged and the activity is added, and a new
window begins where CYC div 2^WLOG changes (R412, R413, R415). -/
def State.clockTo (s : State) (f c : Nat) : State :=
  let x := s.field f
  let n := c / 256 - x.cyc.toNat / 256
  let s := s.setField f { x with cyc := BitVec.ofNat 64 c }
  if n = 0 then s
  else
    let s := (s.leak f (256 * n)).addEnergy f
    if x.cyc.toNat / 2 ^ x.wlog.toNat = c / 2 ^ x.wlog.toNat then s else s.setField f (s.field f).newWindow

/-- A core's cycle: the field's clock goes on when the tile has had its cycle of the present CYC already, since every tile of a field counts the
same cycles (R412; log entry 7). -/
def State.coreTick (s : State) (t : Nat) : State :=
  let c := s.cycOf t
  let s := if (s.tile t).acted = some c then s.clockTo (fieldOf t) (c.toNat + 1) else s
  s.setTile t { s.tile t with acted := some (s.cycOf t) }

/-- Whether a berth is zeroing: in the cycle of its selection and the 11 after it (R245). -/
def State.zeroing (s : State) (t : Nat) (b : Fin 5) : Bool :=
  match (s.berth t b).boundAt with
  | some c => decide ((s.cycOf t - c).toNat < 12)
  | none => false

end Sys2Proof.Machine
end

