-- ==== Sys2Proof/Machine/Special.lean ====
section
/-!
DEFINITION. Machine/Special.lean: the special registers (R53, R66): what CSRR reads and what CSRW writes.
-/
namespace Sys2Proof.Machine

/-- LCk; an inactive depth reads 0 (R115). -/
def Berth.lc (y : Berth) (k : Nat) : Word :=
  if k < y.loops.length then (match y.loops[y.loops.length - 1 - k]? with | some l => l.lc | none => 0) else 0

/-- CCTLc (R120). -/
def Chain.ctl (y : Chain) : Word :=
  BitVec.ofNat 64 (b2n y.paused * 2 ^ 11 + b2n y.done * 2 ^ 10 + b2n y.run * 2 ^ 9 + y.islot.toNat * 4 + y.depth.toNat)

/-- SSTAT (R351). -/
def Tile.sstat (x : Tile) : Word :=
  BitVec.ofNat 64 (x.trapQ.length % 8 * 4 + b2n (x.berths.toList.any fun y => y.status == .held) * 2
    + b2n x.handling.isSome)

/-- What a special register reads (R66, R120, R328, R351, R412, R416). -/
def SlotCtx.spec (c : SlotCtx) (s : State) (r : SpecReg) : Word :=
  let x := s.tile c.t
  let y := c.pre
  let f := s.field (fieldOf c.t)
  match r with
  | .tag => if c.b = 4 then 0 else y.tag.setWidth 64
  | .fptr => if c.b = 4 then 0 else BitVec.ofNat 64 (wbase + frameBase + 160 * y.frame.toNat)
  | .berthno => BitVec.ofNat 64 c.b.val
  | .jobid => x.job.setWidth 64
  | .lc k => y.lc k.toNat
  | .fflags => y.fflags.setWidth 64
  | .fctl => BitVec.ofNat 64 (b2n y.ftz)
  | .vlt => y.vlt.setWidth 64
  | .fmt k => y.fmt.get k.toFin
  | .shape k => y.shape.get k.toFin
  | .cctl k => (x.chains.get k.toFin).ctl
  | .clim k => (x.chains.get k.toFin).clim
  | .ctmpl k => (x.chains.get k.toFin).ctmpl.setWidth 64
  | .ctag k => (x.chains.get k.toFin).ctag.setWidth 64
  | .cpos k => (x.chains.get k.toFin).cpos
  | .cemit k => (x.chains.get k.toFin).cemit
  | .evctl => BitVec.ofNat 64 (b2n x.bank.late * 2 + b2n x.bank.src)
  | .evnow => x.bank.t.setWidth 64
  | .evqlen => BitVec.ofNat 64 (x.bank.q.length % 2 ^ 13)
  | .evdrop => x.bank.drop.setWidth 64
  | .evans => x.bank.ans.setWidth 64
  | .evwl k => x.bank.wl.get k.toFin
  | .evwh k => x.bank.wh.get k.toFin
  | .pbub => x.pbub.setWidth 64
  | .frzc => x.frzc.setWidth 64
  | .vhaz => x.vhaz.setWidth 64
  | .latev => x.latev.setWidth 64
  | .cyc => f.cyc
  | .retb => y.retb
  | .enjob => BitVec.ofNat 64 (wholeMj (SMap.get 0 f.jobEnergy x.job.toNat))
  | .enfld => BitVec.ofNat 64 (wholeMj f.energy)
  | .svec => x.svec.setWidth 64
  | .scause => x.scause
  | .sbad => x.sbad
  | .sdet => x.sdet
  | .sberth => x.sberth
  | .ssave => x.ssave.setWidth 64
  | .sstat => x.sstat
  | .esoftc => f.esoft.setWidth 64
  | .ehardc => f.ehard.setWidth 64
  | .ejlimc => (s.jobOf c.t).elim.setWidth 64
  | .estatc =>
    BitVec.ofNat 64 (wholeMj (f.energy - f.energyBase) % 2 ^ 32 * 2 ^ 32
      + b2n (f.overJobs.contains x.job) * 4 + b2n f.isHard * 2 + b2n f.isSoft)
  | .ewpos => BitVec.ofNat 64 (f.cyc.toNat % 2 ^ f.wlog.toNat)

/-- The tile after a counter was snapshot and cleared (R12, R66, R328); with EVANS, the bytes of the answers that it counted are visible to
every berth (R341). -/
def Tile.clearRsc (x : Tile) (r : RscReg) : Tile :=
  match r with
  | .pbub => { x with pbub := 0 }
  | .frzc => { x with frzc := 0 }
  | .vhaz => { x with vhaz := 0 }
  | .latev => { x with latev := 0 }
  | .evdrop => { x with bank := { x.bank with drop := 0 } }
  | .evans => { x.joinClaims with bank := { x.bank with ans := 0 } }

/-- CSRR (R53). -/
def slotCsrr (d : GReg) (r : SpecReg) (c : SlotCtx) (s : State) : SlotRes := c.result s d (c.spec s r) 1 0

/-- CSRR of a counter that reading clears (R12, R53). -/
def slotCsrrRsc (d : GReg) (r : RscReg) (c : SlotCtx) (s : State) : SlotRes :=
  c.result (s.setTile c.t ((s.tile c.t).clearRsc r)) d (c.spec s r.spec) 1 0

/-! ### CSRW (R11, R13, R53) -/

/-- A write of a register whose bits from `n` up are reserved: the illegal-instruction trap when they are not 0 (R13). -/
def SlotCtx.wr (c : SlotCtx) (x : Word) (n : Nat) (s : State) : SlotRes := if x.toNat / 2 ^ n ≠ 0 then c.illegal 0 else .ok s

/-- The tile of the slot, changed. -/
def SlotCtx.updTile (c : SlotCtx) (s : State) (f : Tile → Tile) : State := s.setTile c.t (f (s.tile c.t))

/-- A chain register changed, unless the chain runs (R120). -/
def Tile.updChain (x : Tile) (k : BitVec 2) (f : Chain → Chain) : Tile :=
  let y := x.chains.get k.toFin
  if y.run then x else x.setChain k (f y)

/-- CSRW of a register with no behaviour of its own; a read-only register is unchanged (R53). -/
def slotCsrw (r : SpecReg) (d : GReg) (c : SlotCtx) (s : State) : SlotRes :=
  let w := c.g d
  match r with
  | .fflags => c.wr w 6 (c.upd s fun y => { y with fflags := w.setWidth 6 })
  | .fctl => c.wr w 1 (c.upd s fun y => { y with ftz := wbit w 0 })
  | .vlt => c.wr w 12 (c.upd s fun y => { y with vlt := w.setWidth 12 })
  | .clim k => c.wr w 56 (c.updTile s fun x => x.updChain k fun y => { y with clim := w })
  | .ctmpl k => c.wr w 16 (c.updTile s fun x => x.updChain k fun y => { y with ctmpl := w.setWidth 16 })
  | .evwl k =>
    if wbits w 62 56 ≠ 0 ∨ wbits w 31 20 ≠ 0 then c.illegal 0
    else .ok (c.updTile s fun x => { x with bank := { x.bank with wl := x.bank.wl.set k.toNat w k.isLt } })
  | .svec => c.wr w 19 (c.updTile s fun x => { x with svec := w.setWidth 19 })
  | .ssave => c.wr w 19 (c.updTile s fun x => { x with ssave := w.setWidth 19 })
  | .sberth =>
    if wbits w 63 62 ≠ 0 then c.illegal 0 else .ok (c.updTile s fun x => { x with sberth := x.sberth - (x.sberth &&& 7) + (w &&& 7) })
  | _ => .ok s

/-- Whether a format entry may stand in a register (R13, R97, R98). -/
def fmtLegal (w : Word) : Bool :=
  let f := Fmt.ofEntry w
  wbits w 63 11 == 0 && decide (f.nsp < 5)
    && (if f.typ = 3 then decide (2 ≤ f.planes) && decide (f.planes ≤ 8) else f.planes == 0 && !f.rnd && !f.packed)

/-- CSRW of FMTk (R98). -/
def slotCsrwFmt (k : BitVec 4) (d : GReg) (c : SlotCtx) (s : State) : SlotRes :=
  if fmtLegal (c.g d) then .ok (c.upd s fun y => { y with fmt := y.fmt.set k.toNat (c.g d) k.isLt }) else c.illegal 0

/-- Whether a shape entry may stand in a register (R13, R344). -/
def shapeLegal (w : Word) : Bool :=
  wbits w 63 48 == 0 && decide (wbits w 31 16 ≤ wbits w 15 0) && decide (wbits w 47 32 ≤ wbits w 31 16)

/-- CSRW of SHAPEk (R344). -/
def slotCsrwShape (k : BitVec 2) (d : GReg) (c : SlotCtx) (s : State) : SlotRes :=
  if shapeLegal (c.g d) then .ok (c.upd s fun y => { y with shape := y.shape.set k.toNat (c.g d) k.isLt })
  else c.illegal 0

/-- The tile after chain `k` is stopped: a paused emission is abandoned (R122). -/
def Tile.stopChain (x : Tile) (k : BitVec 2) : Tile :=
  let x := x.setChain k { x.chains.get k.toFin with run := false, paused := false }
  { x with spawns := x.spawns.filter fun w => w.chain != some k }

/-- CSRW of CCTLc: RUN and DONE clear on writing 1; ISLOT and DEPTH change only while RUN was 0 (R120, R122). -/
def slotCsrwCctl (k : BitVec 2) (d : GReg) (c : SlotCtx) (s : State) : SlotRes :=
  let w := c.g d
  if wbits w 63 12 ≠ 0 ∨ wbits w 8 6 ≠ 0 then c.illegal 0
  else
    .ok (c.updTile s fun x =>
      let run := (x.chains.get k.toFin).run
      let x := x.updChain k fun y => { y with islot := w.extractLsb' 2 4, depth := w.extractLsb' 0 2 }
      let x := if wbit w 10 then x.setChain k { x.chains.get k.toFin with done := false } else x
      if wbit w 9 && run then x.stopChain k else x)

/-- CSRW of EVCTL; the write that sets SRC sets T to TKCNT (R327, R328). -/
def slotCsrwEvctl (d : GReg) (c : SlotCtx) (s : State) : SlotRes :=
  let w := c.g d
  c.wr w 2 (c.updTile s fun x =>
    let k := if wbit w 0 && !x.bank.src then x.bank.advance s.tkcnt else x.bank
    { x with bank := { k with src := wbit w 0, late := wbit w 1 } })

/-- CSRW of EVWHk (R328). -/
def slotCsrwEvwh (k : BitVec 2) (d : GReg) (c : SlotCtx) (s : State) : SlotRes :=
  let w := c.g d
  if wbits w 63 27 ≠ 0 ∨ 8192 < wbits w 12 0 + wbits w 26 13 then c.illegal 0
  else .ok (c.updTile s fun x => { x with bank := { x.bank with wh := x.bank.wh.set k.toNat w k.isLt } })

end Sys2Proof.Machine
end

