-- ==== Sys2Proof/Machine/LoadStore.lean ====
section
/-!
DEFINITION. Machine/LoadStore.lean: loads, stores, acquires, releases, fences, cache maintenance, atomics, multicast stores
and memory tags (R135 to R148). A slot checks its access; an access to the window is performed at once, and a global one becomes an
outstanding operation of the tile, which HOME_ACCESS performs in the order that R284 asks for.
-/
namespace Sys2Proof.Machine

/-! ### Loads (R135, R136, R139) -/

/-- A checked load of `n` bytes, landing what a function makes of the value. -/
def SlotCtx.loadWith (c : SlotCtx) (s : State) (ea : Word) (n : Nat) (k : Access) (v : View) (f : State → Loaded → State) : SlotRes :=
  match c.check s ea n k with
  | .error r => r
  | .ok ps =>
    let (s, x) := c.read s v ps
    .ok (f s x)

/-- LD at an address: zero-extended; a q load lands gD and gD + 1 (R135). -/
def SlotCtx.ldAt (c : SlotCtx) (s : State) (wd : LdW) (l : Land) (d : GReg) (ea : Word) : SlotRes :=
  c.loadWith s ea wd.bytes { write := false } .linear fun s x =>
    match wd with
    | .q => c.landPart (c.landPart s (.g d) x 0 8 false l.toNat) (.g (d + 1)) x 8 8 false l.toNat
    | _ => c.landPart s (.g d) x 0 wd.bytes false l.toNat

/-- LDS at an address: sign-extended (R135). -/
def SlotCtx.ldsAt (c : SlotCtx) (s : State) (wd : LdsW) (l : Land) (d : GReg) (ea : Word) : SlotRes :=
  c.loadWith s ea wd.bytes { write := false } .linear fun s x => c.landPart s (.g d) x 0 wd.bytes true l.toNat

/-- LD (R135). -/
def slotLd (wd : LdW) (l : Land) (d a : GReg) (o : Ofs) (c : SlotCtx) (s : State) : SlotRes :=
  c.ldAt s wd l d (c.eaOfs a o wd.bytes)

/-- LD with an index (R135). -/
def slotLdIndexed (wd : LdW) (l : Land) (d a b : GReg) (c : SlotCtx) (s : State) : SlotRes :=
  c.ldAt s wd l d (c.eaIdx a b)

/-- LDS (R135). -/
def slotLds (wd : LdsW) (l : Land) (d a : GReg) (o : Ofs) (c : SlotCtx) (s : State) : SlotRes :=
  c.ldsAt s wd l d (c.eaOfs a o wd.bytes)

/-- LDS with an index (R135). -/
def slotLdsIndexed (wd : LdsW) (l : Land) (d a b : GReg) (c : SlotCtx) (s : State) : SlotRes :=
  c.ldsAt s wd l d (c.eaIdx a b)

/-- LDV: 64 bytes through the linear view or from global memory (R136). -/
def slotLdv (l : Land) (d : VReg) (a : GReg) (o : Ofs) (c : SlotCtx) (s : State) : SlotRes :=
  c.loadWith s (c.eaOfs a o 64) 64 { write := false } .linear fun s x => c.landPart s (.v d) x 0 64 false l.toNat

/-- The traps of LDX and STX before the access: outside the window, then misaligned (R136). -/
def SlotCtx.swizzled (c : SlotCtx) (ea : Word) : Option SlotRes :=
  if wbits ea 63 60 ≠ 0 then some (c.trap 0x05 ea 40)
  else if !eaWindow ea then some (c.trap 0x03 ea 0)
  else none

/-- LDX: 64 bytes through the swizzled view (R136). -/
def slotLdx (l : Land) (d : VReg) (a : GReg) (o : Ofs) (c : SlotCtx) (s : State) : SlotRes :=
  match c.swizzled (c.eaOfs a o 64) with
  | some r => r
  | none =>
    c.loadWith s (c.eaOfs a o 64) 64 { write := false, aligned := true } .swizzled fun s x => c.landPart s (.v d) x 0 64 false l.toNat

/-- An ordered operation on `n` bytes that a slot has checked: it is outstanding, in the window too, and its value, if a register takes one,
lands once it has been performed (R139, R143). -/
def SlotCtx.ordered (c : SlotCtx) (s : State) (o : MemOp) (ps : List Place) (land : Option (GReg × Nat × Bool × Nat)) : State :=
  let id := s.uid
  let s := (s.pushPieces c.t o ps).nextId
  match land with
  | some (d, n, signed, l) => c.landPart s (.g d) (.later id) 0 n signed l
  | none => s

/-- LD.d.acq: a load and an acquire of the scope, which holds later L and N slots (R139). -/
def slotLdDAcq (sc : Scope) (l : Land) (d a : GReg) (o : Ofs) (c : SlotCtx) (s : State) : SlotRes :=
  match c.check s (c.eaOfs a o 8) 8 { write := false, aligned := true } with
  | .error r => r
  | .ok ps => .ok (c.ordered s { c.op s .load with acq := some sc } ps (some (d, 8, false, l.toNat)))

/-! ### Stores -/

/-- A checked store of `n` bytes. -/
def SlotCtx.storeWith (c : SlotCtx) (s : State) (ea : Word) (n : Nat) (k : Access) (v : View) (x : Nat) : SlotRes :=
  match c.check s ea n k with
  | .error r => r
  | .ok ps => .ok (c.write s v ps (leBytes n x))

/-- The value that ST stores: gD, or gD + 1 : gD for q (R135). -/
def SlotCtx.stValue (c : SlotCtx) (wd : LdW) (d : GReg) : Nat :=
  match wd with
  | .q => (c.g d).toNat + (c.g (d + 1)).toNat * 2 ^ 64
  | _ => (c.g d).toNat

/-- ST (R135). -/
def slotSt (wd : LdW) (d a : GReg) (o : Ofs) (c : SlotCtx) (s : State) : SlotRes :=
  c.storeWith s (c.eaOfs a o wd.bytes) wd.bytes { write := true } .linear (c.stValue wd d)

/-- ST with an index (R135). -/
def slotStIndexed (wd : LdW) (d a b : GReg) (c : SlotCtx) (s : State) : SlotRes :=
  c.storeWith s (c.eaIdx a b) wd.bytes { write := true } .linear (c.stValue wd d)

/-- STV (R136). -/
def slotStv (d : VReg) (a : GReg) (o : Ofs) (c : SlotCtx) (s : State) : SlotRes :=
  c.storeWith s (c.eaOfs a o 64) 64 { write := true } .linear (c.v d).toNat

/-- STX (R136). -/
def slotStx (d : VReg) (a : GReg) (o : Ofs) (c : SlotCtx) (s : State) : SlotRes :=
  match c.swizzled (c.eaOfs a o 64) with
  | some r => r
  | none => c.storeWith s (c.eaOfs a o 64) 64 { write := true, aligned := true, swz := true } .swizzled (c.v d).toNat

/-- ST.d.rel: a release of the scope, then the store, brought to the level that serves the scope (R139, R280). -/
def slotStDRel (sc : Scope) (d a : GReg) (o : Ofs) (c : SlotCtx) (s : State) : SlotRes :=
  match c.check s (c.eaOfs a o 8) 8 { write := true, aligned := true } with
  | .error r => r
  | .ok ps => .ok (c.ordered s { c.op s (.store (leBytes 8 (c.g d).toNat)) with rel := some sc } ps none)

/-- MCST: the 8 bytes in every replica, at their homes, past the caches; the window traps (R145). -/
def slotMcst (d a : GReg) (o : Ofs) (c : SlotCtx) (s : State) : SlotRes :=
  let ea := c.eaOfs a o 8
  if wbits ea 63 60 = 0 ∧ eaWindow ea then c.trap 0x03 ea 0
  else match c.check s ea 8 { write := true, aligned := true, home := true, all := true } with
    | .error r => r
    | .ok ps => .ok (c.ordered s (c.op s (.mcst (leBytes 8 (c.g d).toNat))) ps none)

/-! ### Ordering and cache maintenance (R138 to R142) -/

/-- FENCE: a release and an acquire (R140). -/
def slotFence (sc : Scope) (c : SlotCtx) (s : State) : SlotRes :=
  .ok (s.pushOp c.t { c.op s .fence with rel := some sc, acq := some sc }).nextId

/-- VJOIN (R138). -/
def slotVjoin (c : SlotCtx) (s : State) : SlotRes := .ok (s.setTile c.t ((s.tile c.t).joinOwn c.b))

/-- PREF: the sector is to be brought into the tile data cache, or nothing happens (R142). -/
def slotPref (a : GReg) (c : SlotCtx) (s : State) : SlotRes :=
  match s.checkAccess c.t c.b (c.g a) 1 { write := false } with
  | .error _ => .ok s
  | .ok ps => if ps.any fun p => p.win || bypasses p.leaf then .ok s else .ok (s.pushPieces c.t (c.op s .pref) ps).nextId

/-- The leaf entry and the physical address of a virtual address; none for an unmapped page. -/
def State.lookup (s : State) (t va : Nat) : Option (Word × Nat) :=
  match s.translate t va with
  | .hit e pa _ => some (e, pa)
  | _ => none

/-- The runs of bytes that FLUSH and INVAL act on, 64 KiB page by page: the leaf entry, the physical key of the first byte, the length and
the place in the whole (R141). -/
def State.cleanRuns (s : State) (t : Nat) (a : Word) (n : Nat) : List (Word × Nat × Nat × Nat) :=
  let lo := eaVa a
  if n = 0 || wbits a 63 60 ≠ 0 then []
  else
    ((List.range ((lo + n - 1) / 65536 + 1 - lo / 65536)).map fun i => lo / 65536 + i).filterMap fun pg =>
      let x := max lo (65536 * pg)
      let y := min (lo + n) (65536 * (pg + 1))
      if decide (wbase ≤ x) && decide (x < wbase + 2 ^ 30) then none
      else match s.lookup t x with
        | some (e, pa) => if bypasses e then none else some (e, s.keyFor t e pa, y - x, x - lo)
        | none => none

/-- FLUSH and INVAL: one operation for each run; none at a scope that is served in the tile (R141). -/
def SlotCtx.clean (c : SlotCtx) (s : State) (sc : Scope) (drop : Bool) (a b : GReg) : State :=
  if sc.tdcLevel then
    let o := c.op s (.clean sc drop)
    ((s.cleanRuns c.t (c.g a) (min (c.g b).toNat 65536)).foldl (fun s r =>
      s.pushOp c.t { o with leaf := r.1, key := r.2.1, n := r.2.2.1, off := r.2.2.2 }) s).nextId
  else s

/-- FLUSH (R141). -/
def slotFlush (sc : Scope) (a b : GReg) (c : SlotCtx) (s : State) : SlotRes := .ok (c.clean s sc false a b)

/-- INVAL (R141). -/
def slotInval (sc : Scope) (a b : GReg) (c : SlotCtx) (s : State) : SlotRes := .ok (c.clean s sc true a b)

/-! ### Atomics and reductions (R143, R144) -/

/-- What an atomic needs of its address. -/
def atomicAccess : Access := { write := true, aligned := true, home := true }

/-- A checked read-modify-write of `n` bytes: performed at once in the window, outstanding elsewhere; its old value is landed if a register
takes it. -/
def SlotCtx.rmw (c : SlotCtx) (s : State) (op : AmoOp) (n : Nat) (ps : List Place) (x y : Word) (land : Option (GReg × Nat)) : State :=
  match ps with
  | [] => s
  | p :: _ =>
    if p.win && !(s.tile c.t).windowWaits c.b then
      let (s, old) := s.windowRmw c.t c.b op p.addr n x y
      match land with
      | some (d, l) => c.landPart s (.g d) (.now (leBytes n old)) 0 n true l
      | none => s
    else c.ordered s (c.op s (.rmw op x y)) ps (land.map fun dl => (dl.1, n, true, dl.2))

/-- AMO (R143). -/
def slotAmo (op : AmoOp) (wd : AmoW) (l : Land) (d a b : GReg) (c : SlotCtx) (s : State) : SlotRes :=
  match c.check s (c.g a) wd.bytes atomicAccess with
  | .error r => r
  | .ok ps => .ok (c.rmw s op wd.bytes ps (c.g b) (c.g d) (some (d, l.toNat)))

/-- Whether an AMOS acquires. -/
def AmoOrd.acquires : AmoOrd → Bool
  | .rel => false
  | _ => true
/-- Whether an AMOS releases. -/
def AmoOrd.releases : AmoOrd → Bool
  | .acq => false
  | _ => true

/-- AMOS: 8 bytes, with its ordering at its scope, landing at 15 (R143). -/
def slotAmos (op : AmoOp) (sc : Scope) (o : AmoOrd) (d a b : GReg) (c : SlotCtx) (s : State) : SlotRes :=
  match c.check s (c.g a) 8 atomicAccess with
  | .error r => r
  | .ok ps =>
    .ok (c.ordered s { c.op s (.rmw op (c.g b) (c.g d)) with
      rel := if AmoOrd.releases o then some sc else none, acq := if AmoOrd.acquires o then some sc else none } ps (some (d, 8, false, 15)))

/-- RED (R144). -/
def slotRed (op : RedOp) (wd : AmoW) (a b : GReg) (c : SlotCtx) (s : State) : SlotRes :=
  match c.check s (c.g a) wd.bytes atomicAccess with
  | .error r => r
  | .ok ps => .ok (c.rmw s op.amo wd.bytes ps (c.g b) 0 none)

/-! ### Memory tags (R148, R320, R321) -/

/-- The place of the granule that TAGLD or TAGST names, or its trap: only a tag-checked page will do (R148, R311). -/
def SlotCtx.tagPlace (c : SlotCtx) (s : State) (ea : Word) (write : Bool) : Except SlotRes Place :=
  let ea := ea &&& ~~~31#64
  if wbits ea 63 60 = 0 ∧ eaWindow ea then .error (c.trap 0x03 ea 0)
  else match c.check s ea 32 { write, tagged := false, home := true, all := write, watched := false } with
    | .error r => .error r
    | .ok ps =>
      if ps.any fun p => !leafTchk p.leaf then .error (c.trap 0x03 ea 0)
      else match ps with
        | p :: _ => .ok p
        | [] => .error (c.trap 0x03 ea 0)

/-- TAGLD: the lock of the granule (R148). -/
def slotTagld (l : Land) (d a : GReg) (o : Ofs) (c : SlotCtx) (s : State) : SlotRes :=
  match c.tagPlace s (c.eaOfs a o 32) false with
  | .error r => r
  | .ok p => .ok (c.ordered s (c.op s .tagld) [p] (some (d, 8, false, l.toNat)))

/-- TAGST: the lock set at the home, in every replica of a replicated page; the tile's and the spur's copies of the sector
are invalidated (R148, R320). -/
def slotTagst (d a : GReg) (o : Ofs) (c : SlotCtx) (s : State) : SlotRes :=
  match c.tagPlace s (c.eaOfs a o 32) true with
  | .error r => r
  | .ok p => .ok (c.ordered s (c.op s (.tagst ((c.g d).setWidth 4))) [p] none)

end Sys2Proof.Machine
end

