-- ==== Sys2Proof/Machine/Macros.lean ====
section
/-!
DEFINITION. Machine/Macros.lean: the M slots and the issue of STEER and MERGE: the descriptor checks of R176 to R187 and R210,
entering a macro in its queue (R167 to R170), and QFENCE, MWAIT, MPRG, MSTAT, MRES and MKILL (R188 to R192).
-/
namespace Sys2Proof.Machine

/-! ### The checks of a descriptor (R176) -/

/-- What the checks of a descriptor look at. -/
structure DescCheck where
  /-- Whether each word passes the third check, in ascending order. -/
  words : List Bool
  /-- TOTAL. -/
  total : Nat
  /-- Window ranges: first byte and one past the last. -/
  ranges : List (Nat × Nat)
  /-- Window addresses with the alignment that they need. -/
  aligns : List (Nat × Nat)
  deriving DecidableEq, Repr

/-- The index of the first check that fails, counted from a number. -/
def firstFailing : Nat → List Bool → Option Nat
  | _, [] => none
  | i, ok :: r => if ok then firstFailing (i + 1) r else some i

/-- The index of the first word that fails. -/
def DescCheck.bad (k : DescCheck) : Option Nat := firstFailing 0 k.words

/-- The trap of the third, fourth or fifth check; `base` is added to the index of a failing word. -/
def SlotCtx.descTrap (c : SlotCtx) (k : DescCheck) (base : Nat) : Option SlotRes :=
  match k.bad with
  | some i => some (c.illegal (BitVec.ofNat 64 (base + i)))
  | none =>
    match k.ranges.find? fun r => decide (padSize < r.2) with
    | some r => some (c.trap 0x03 (BitVec.ofNat 64 (wbase + r.1)) 0)
    | none =>
      match k.aligns.find? fun a => a.1 % a.2 != 0 with
      | some a => some (c.trap 0x04 (BitVec.ofNat 64 (wbase + a.1)) (BitVec.ofNat 64 a.2))
      | none => none

/-- Whether word 0 is in order: reserved bits, the selections that the op does not have, and START. -/
def word0Ok (w : Word) (z q sh : Bool) (total : Nat) : Bool :=
  wbits w 63 38 == 0 && (sh || wbits w 37 36 == 0) && (z || wbits w 35 34 == 0) && (q || wbits w 33 32 == 0)
    && decide (wbits w 31 0 ≤ total)

/-- Whether the fields of an operand word that its format has no use for are 0 (R177). -/
def operandOk (f : Fmt) (w : Word) : Bool :=
  if f.plane then opRstr w == 0 && (!f.packed || (opPstr w == 0 && opHdr w == 0))
  else opPstr w == 0 && opHdr w == 0

/-- The window ranges of an operand. -/
def operandWin (f : Fmt) (w : Word) (lines k : Nat) : List (Nat × Nat) :=
  (operandSpan f w lines k).map fun r => (r.lo, r.hi)

/-- The alignments of an operand (R177). -/
def operandAligns (f : Fmt) (w : Word) : List (Nat × Nat) :=
  if f.plane then (if f.packed then [(opBase w, 64)] else [(opHdr w, 2), (opBase w, 8)]) else [(opBase w, f.bytes)]

/-- TLW (R179); under `.ft` and `.f0` the format's NSP must equal the descriptor's. -/
def checkTlw (variant : BitVec 3) (f : Fmt) (d : BitVec 512) : DescCheck :=
  let w := descWord d
  let k := wbits (w 2) 9 0
  let nsp := wbits (w 2) 12 10
  let mask := wbits (w 3) 18 0
  { words := [word0Ok (w 0) false false false 16, operandOk f (w 1),
              wbits (w 2) 63 13 == 0 && decide (nsp < 5) && (decide (variant.toNat < 3) || f.nsp == nsp) && f.weightK nsp k,
              if nsp = 0 then w 3 == 0 else wbits (w 3) 63 19 == 0, w 4 == 0, w 5 == 0, w 6 == 0, w 7 == 0]
    total := 16
    ranges := operandWin f (w 1) 16 (storedCount nsp k) ++ (if nsp = 0 then [] else [(mask, mask + 32 * (k / 12))])
    aligns := operandAligns f (w 1) }

/-- The sparsities that a TSPZ may have: that of its format, or any under a plain variant. -/
def sparsities (variant : BitVec 3) (f : Fmt) : List Nat :=
  if 3 ≤ variant.toNat ∧ f.nsp ≠ 0 then [f.nsp] else [1, 2, 3, 4]

/-- TMM and TSPZ (R180). -/
def checkTmm (sparse : Bool) (variant : BitVec 3) (f : Fmt) (d : BitVec 512) : DescCheck :=
  let w := descWord d
  let m := wbits (w 2) 5 0
  let k := wbits (w 2) 15 6
  let kOk := if sparse then (sparsities variant f).any fun n => f.weightK n k else f.denseK k
  { words := [word0Ok (w 0) true false false m, operandOk f (w 1),
              wbits (w 2) 63 16 == 0 && decide (1 ≤ m) && decide (m ≤ 32) && kOk,
              wbits (w 3) 63 19 == 0, w 4 == 0, w 5 == 0, w 6 == 0, w 7 == 0]
    total := m
    ranges := operandWin f (w 1) m k
    aligns := operandAligns f (w 1) }

/-- TMMG (R185). -/
def checkTmmg (f : Fmt) (d : BitVec 512) : DescCheck :=
  let w := descWord d
  let m := wbits (w 2) 15 0
  let nbuf := wbits (w 2) 29 26 + 1
  let out := wbits (w 5) 18 0
  { words := [word0Ok (w 0) false false true m, operandOk f (w 1),
              wbits (w 2) 63 30 == 0 && decide (1 ≤ m) && f.denseK (wbits (w 2) 25 16),
              wbits (w 3) 63 19 == 0, wbits (w 4) 63 19 == 0,
              wbits (w 5) 63 32 == 0 && decide (1 ≤ wbits (w 5) 31 19), true, wbits (w 7) 63 32 == 0]
    total := m
    ranges := operandWin f (w 1) m (wbits (w 2) 25 16)
      ++ [(wbits (w 3) 18 0, wbits (w 3) 18 0 + 2 * m), (wbits (w 4) 18 0, wbits (w 4) 18 0 + 8 * nbuf),
          (out, out + 64 * (m - 1) * wbits (w 5) 31 19 + 64)]
    aligns := operandAligns f (w 1) }

/-- TRANK (R183). -/
def checkTrank (f : Fmt) (d : BitVec 512) : DescCheck :=
  let w := descWord d
  let m := wbits (w 2) 15 0
  let e := wbits (w 2) 22 16
  let rank := wbits (w 3) 18 0
  let chosen := wbits (w 4) 18 0
  { words := [word0Ok (w 0) false false false m, operandOk f (w 1),
              wbits (w 2) 63 30 == 0 && decide (1 ≤ m) && decide (1 ≤ e) && decide (e ≤ 64)
                && decide (wbits (w 2) 29 23 ≤ 64),
              wbits (w 3) 63 20 == 0, wbits (w 4) 63 20 == 0, w 5 == 0, w 6 == 0, w 7 == 0]
    total := m
    ranges := operandWin f (w 1) m e ++ (if wbit (w 3) 19 then [(rank, rank + 64 * m)] else [])
      ++ (if wbit (w 4) 19 then [(chosen, chosen + 8 * m)] else [])
    aligns := operandAligns f (w 1) }

/-- TDR in a floating format (R182). -/
def checkTdr (f : Fmt) (d : BitVec 512) : DescCheck :=
  let w := descWord d
  let m := wbits (w 2) 5 0
  let pubm := wbit (w 2) 7
  { words := [word0Ok (w 0) true false false (m + b2n pubm), operandOk f (w 1),
              wbits (w 2) 63 8 == 0 && decide (1 ≤ m) && decide (m ≤ 32), pubm || w 3 == 0,
              wbits (w 4) 63 32 == 0 && (pubm || w 4 == 0), w 5 == 0, w 6 == 0, w 7 == 0]
    total := m + b2n pubm
    ranges := operandWin f (w 1) m 16
    aligns := operandAligns f (w 1) }

/-- GATH and SCAT (R187). -/
def checkGather (d : BitVec 512) : DescCheck :=
  let w := descWord d
  let n := wbits (w 3) 31 0
  let idx := wbits (w 4) 18 0
  { words := [word0Ok (w 0) false false false n, true, true, wbits (w 3) 63 32 == 0, wbits (w 4) 63 19 == 0, w 5 == 0,
              w 6 == 0, w 7 == 0]
    total := n
    ranges := [(idx, idx + 4 * n)]
    aligns := [(idx, 4)] }

/-- COPY and SETM (R186); word 2 of SETM is reserved. -/
def checkCopy (setm : Bool) (d : BitVec 512) : DescCheck :=
  let w := descWord d
  let n := wbits (w 3) 31 0
  { words := [word0Ok (w 0) false true false n, true, !setm || w 2 == 0, wbits (w 3) 63 32 == 0, w 4 == 0, w 5 == 0,
              w 6 == 0, w 7 == 0]
    total := n
    ranges := []
    aligns := [] }

/-- COPY2 (R186). -/
def checkCopy2 (d : BitVec 512) : DescCheck :=
  let w := descWord d
  let n := wbits (w 3) 31 0 * wbits (w 3) 63 32
  { words := [word0Ok (w 0) false true false n, true, true, decide (n < 2 ^ 32), true, w 5 == 0, w 6 == 0, w 7 == 0]
    total := n
    ranges := []
    aligns := [] }

/-- STEER (R210). -/
def checkSteer (d : BitVec 512) : DescCheck :=
  let w := descWord d
  let rlen := wbits (w 1) 33 19
  let m := wbits (w 2) 15 0
  let k := wbits (w 2) 18 16 + 1
  let src := wbits (w 1) 18 0
  let ex := wbits (w 2) 37 19
  let gwt := wbits (w 3) 18 0
  { words := [word0Ok (w 0) false false false m,
              wbits (w 1) 63 34 == 0 && decide (32 ≤ rlen) && decide (rlen ≤ 16352) && rlen % 32 == 0,
              wbits (w 2) 63 38 == 0 && decide (1 ≤ m), wbits (w 3) 63 20 == 0, wbits (w 4) 63 24 == 0, w 5 == 0, w 6 == 0,
              w 7 == 0]
    total := m
    ranges := [(src, src + rlen * m), (ex, ex + k * m)]
      ++ (if wbit (w 3) 19 then [(gwt, gwt + 4 * k * m)] else [])
    aligns := [] }

/-- MERGE (R210). -/
def checkMerge (d : BitVec 512) : DescCheck :=
  let w := descWord d
  let nin := wbits (w 1) 34 19
  let m := wbits (w 2) 34 19
  let e := wbits (w 3) 12 0
  let src := wbits (w 1) 18 0
  let out := wbits (w 2) 18 0
  { words := [word0Ok (w 0) false false false m, wbits (w 1) 63 48 == 0,
              wbits (w 2) 63 36 == 0 && decide (1 ≤ m), wbits (w 3) 63 13 == 0 && decide (1 ≤ e) && decide (e ≤ 4088),
              w 4 == 0, w 5 == 0, w 6 == 0, w 7 == 0]
    total := m
    ranges := [(src, if nin = 0 then src else src + 32 * wbits (w 1) 47 35 * (nin - 1) + 32 + 4 * e), (out, out + 4 * e * m)]
    aligns := [] }

/-! ### Entering a macro (R168 to R170) -/

/-- A macro entered on a handle: in its queue, or DONE at once when no element is left (R176). -/
def SlotCtx.enter (c : SlotCtx) (s : State) (m : MReg) (h : Handle) : State :=
  let h := { h with uid := s.uid, entered := s.uid }
  let s := { s with uid := s.uid + 1 }
  let put (h : Handle) : Tile := (s.tile c.t).setBerth c.b ((c.cur s).setHd m h)
  if h.prog = h.total then s.setTile c.t (put { h with st := .done })
  else
    let h := { h with st := .queued }
    s.setTile c.t ((put h).enqueueMac h)

/-- A macro with a checked descriptor entered on a handle. -/
def SlotCtx.enterDesc (c : SlotCtx) (s : State) (m : MReg) (op : Nat) (v : BitVec 3) (fmt : Word) (off : Nat)
    (d : BitVec 512) (aux : BitVec 256) (total : Nat) : SlotRes :=
  let op : BitVec 5 := BitVec.ofNat 5 op
  .ok (c.enter s m { op, eng := BitVec.ofNat 3 (engineOf op d), total := BitVec.ofNat 32 total,
                     prog := (descWord d 0).extractLsb' 0 32, desc := d, daddr := BitVec.ofNat 19 off, variant := v, fmt, aux })

/-- `n` window bytes that a slot reads through the linear view. -/
def SlotCtx.windowBytes (c : SlotCtx) (s : State) (off n : Nat) : State × Nat :=
  let (s, bs) := s.windowRead c.t (some c.b) .linear true off n
  (s, leNat bs)

/-- The descriptor at an address: its window offset and its bytes, or the trap (R176). -/
def SlotCtx.descriptor (c : SlotCtx) (s : State) (a : Word) : Except SlotRes (State × Nat × BitVec 512) :=
  match c.record a 64 64 with
  | .error r => .error r
  | .ok off =>
    let (s, x) := c.windowBytes s off 64
    .ok (s, off, BitVec.ofNat 512 x)

/-- The format entry that a variant copies (R99). -/
def SlotCtx.entryFor (c : SlotCtx) (v : BitVec 3) : Word :=
  if v = 3 then c.pre.fmt.getD ((c.pre.lc 0).toNat % 16) 0 else if v = 4 then c.pre.fmt.getD 0 0 else 0

/-- A macro with one descriptor: read, checked and entered. -/
def SlotCtx.issueMacro (c : SlotCtx) (s : State) (m : MReg) (a : GReg) (op : Nat) (v : BitVec 3) (fmt : Word)
    (aux : BitVec 512 → BitVec 256) (check : BitVec 512 → DescCheck) : SlotRes :=
  match c.descriptor s (c.g a) with
  | .error r => r
  | .ok (s, off, d) =>
    match c.descTrap (check d) 0 with
    | some r => r
    | none => c.enterDesc s m op v fmt off d (aux d) (check d).total

/-- TLW (R179). -/
def slotTlw (v : MVar) (m : MReg) (a : GReg) (c : SlotCtx) (s : State) : SlotRes :=
  let e := c.entryFor v.code
  c.issueMacro s m a 0 v.code e (fun _ => 0) (checkTlw v.code (Fmt.ofVariant v.code e))

/-- TMM and TSPZ: after the descriptor has passed, the TLW descriptor at WDESC is read and checked (R176, R180). -/
def SlotCtx.issueTmm (c : SlotCtx) (s : State) (m : MReg) (a : GReg) (v : BitVec 3) (sparse : Bool) : SlotRes :=
  let e := c.entryFor v
  let f := Fmt.ofVariant v e
  match c.descriptor s (c.g a) with
  | .error r => r
  | .ok (s, off, d) =>
    match c.descTrap (checkTmm sparse v f d) 0 with
    | some r => r
    | none =>
      match c.descriptor s (BitVec.ofNat 64 (wbase + wbits (descWord d 3) 18 0)) with
      | .error r => r
      | .ok (s, _, d2) =>
        match c.descTrap (checkTlw v f d2) 8 with
        | some r => r
        | none =>
          let w2 := descWord d2 2
          if (wbits w2 12 10 != 0) != sparse || wbits w2 9 0 != wbits (descWord d 2) 15 6 then c.illegal 10
          else c.enterDesc s m (if sparse then 4 else 1) v e off d 0 (wbits (descWord d 2) 5 0)

/-- TMM (R180). -/
def slotTmm (v : MVar) (m : MReg) (a : GReg) (c : SlotCtx) (s : State) : SlotRes := c.issueTmm s m a v.code false

/-- TSPZ (R180). -/
def slotTspz (v : MVar) (m : MReg) (a : GReg) (c : SlotCtx) (s : State) : SlotRes := c.issueTmm s m a v.code true

/-- TMMG: SHAPE(SHSEL) is copied at issue (R185). -/
def slotTmmg (v : MVar) (m : MReg) (a : GReg) (c : SlotCtx) (s : State) : SlotRes :=
  let e := c.entryFor v.code
  c.issueMacro s m a 2 v.code e (fun d => (c.pre.shape.getD (wbits (descWord d 0) 37 36) 0).setWidth 256)
    (checkTmmg (Fmt.ofVariant v.code e))

/-- TRANK (R183). -/
def slotTrank (v : RVar) (m : MReg) (a : GReg) (c : SlotCtx) (s : State) : SlotRes :=
  c.issueMacro s m a 3 v.code 0 (fun _ => 0) (checkTrank (Fmt.ofVariant v.code 0))

/-- TDR: a bit-plane variant traps with the format as detail (R182). -/
def slotTdr (v : MVar) (m : MReg) (a : GReg) (c : SlotCtx) (s : State) : SlotRes :=
  let e := c.entryFor v.code
  let f := Fmt.ofVariant v.code e
  match c.record (c.g a) 64 64 with
  | .error r => r
  | .ok _ => if f.plane then c.illegal e else c.issueMacro s m a 5 v.code e (fun _ => 0) (checkTdr f)

/-- TZ of z(A[1:0]): 32 rows (R181). -/
def slotTz (m : MReg) (a : GReg) (c : SlotCtx) (s : State) : SlotRes :=
  .ok (c.enter s m { op := 6, total := 32, desc := BitVec.ofNat 512 (wbits (c.g a) 1 0 * 2 ^ 34) })

/-- TSHAPE: SHAPE0 to SHAPE3 from the 32 bytes at gA; the handle is DONE with TOTAL 1 (R184, R344). -/
def slotTshape (m : MReg) (a : GReg) (c : SlotCtx) (s : State) : SlotRes :=
  match c.record (c.g a) 32 32 with
  | .error r => r
  | .ok off =>
    let (s, x) := c.windowBytes s off 32
    let w (i : Nat) : Word := BitVec.ofNat 64 (x / 2 ^ (64 * i))
    if [0, 1, 2, 3].any fun i => !shapeLegal (w i) then c.illegal 0
    else
      let s := c.upd s fun y => { y with shape := Vector.ofFn fun i => w i.val }
      .ok (c.enter s m { op := 7, eng := 6, total := 1, prog := 1, daddr := BitVec.ofNat 19 off })

/-- GATH (R187). -/
def slotGath (e : ESize) (m : MReg) (a : GReg) (c : SlotCtx) (s : State) : SlotRes :=
  c.issueMacro s m a 8 e.code 0 (fun _ => 0) checkGather

/-- SCAT (R187). -/
def slotScat (e : ESize) (m : MReg) (a : GReg) (c : SlotCtx) (s : State) : SlotRes :=
  c.issueMacro s m a 9 e.code 0 (fun _ => 0) checkGather

/-- COPY (R186). -/
def slotCopy (e : ESize) (m : MReg) (a : GReg) (c : SlotCtx) (s : State) : SlotRes :=
  c.issueMacro s m a 10 e.code 0 (fun _ => 0) (checkCopy false)

/-- COPY2 (R186). -/
def slotCopy2 (e : ESize) (m : MReg) (a : GReg) (c : SlotCtx) (s : State) : SlotRes :=
  c.issueMacro s m a 11 e.code 0 (fun _ => 0) checkCopy2

/-- SETM: the pattern is gB (R186); it is kept with the handle (log entry 16). -/
def slotSetm (e : ESize) (m : MReg) (a b : GReg) (c : SlotCtx) (s : State) : SlotRes :=
  c.issueMacro s m a 12 e.code 0 (fun _ => 0#128 ++ (c.g b ++ (0 : Word))) (checkCopy true)

/-! ### Fences, waiting, reading, resuming and stopping (R188 to R192) -/

/-- The macros in the queues that a mask names (R188). -/
def Tile.inQueues (x : Tile) (mask : BitVec 7) : List Nat :=
  (List.range 7).flatMap fun e => if mask.getLsbD e then (x.queue e).filterMap fun
    | .mac u => some u
    | _ => none
  else []

/-- QFENCE over the queues of gA[6:0]; a mask of 0 is DONE at once (R188). -/
def slotQfence (sc : Scope) (m : MReg) (a : GReg) (c : SlotCtx) (s : State) : SlotRes :=
  let mask : BitVec 7 := (c.g a).extractLsb' 0 7
  let h : Handle := { op := 13, eng := 6, total := 1, variant := sc.code, qmask := mask, uid := s.uid, entered := s.uid,
                      ahead := (s.tile c.t).inQueues mask }
  let s := { s with uid := s.uid + 1 }
  let put (h : Handle) : Tile := (s.tile c.t).setBerth c.b ((c.cur s).setHd m h)
  if mask = 0 then .ok (s.setTile c.t (put { h with st := .done, prog := 1 }))
  else .ok (s.setTile c.t ((put { h with st := .queued }).enqueueFence mask h.uid))

/-- The macro's writes joined to the berth that observes DONE; those of the operations ahead of a QFENCE too (R174, R291). -/
def SlotCtx.observe (c : SlotCtx) (s : State) (m : MReg) : State :=
  let h := (c.cur s).hd m
  if h.st = .done then s.setTile c.t ((h.uid :: h.ahead).foldl (fun x u => x.joinMacro c.b u) (s.tile c.t)) else s

/-- MWAIT: issues once the handle is neither QUEUED nor RUNNING (R189). -/
def slotMwait (m : MReg) (c : SlotCtx) (s : State) : SlotRes := .ok (c.observe s m)

/-- MPRG: the progress register (R190). -/
def slotMprg (d : GReg) (m : MReg) (c : SlotCtx) (s : State) : SlotRes := c.result s d (c.pre.hd m).progress 1 0

/-- MSTAT: the status register; reading DONE joins the macro's writes (R174, R190). -/
def slotMstat (d : GReg) (m : MReg) (c : SlotCtx) (s : State) : SlotRes :=
  c.result (c.observe s m) d (c.pre.hd m).status 1 0

/-- The first word in which two descriptors differ, START ignored (R192). -/
def descDiffer (a b : BitVec 512) : Option Nat :=
  (List.range 8).find? fun i =>
    let x := descWord a i
    let y := descWord b i
    if i = 0 then x.extractLsb' 32 32 != y.extractLsb' 32 32 else x != y

/-- Whether an operation has a descriptor: all but TZ, TSHAPE and QFENCE (R176). -/
def hasDesc (op : BitVec 5) : Bool := op != 6 && op != 7 && op != 13

/-- MRES (R192). -/
def slotMres (m : MReg) (a : GReg) (c : SlotCtx) (s : State) : SlotRes :=
  let h := c.pre.hd m
  if !h.resumable then c.illegal 0
  else match c.descriptor s (c.g a) with
    | .error r => r
    | .ok (s, _, d) =>
      match if hasDesc h.op then descDiffer h.desc d else none with
      | some i => c.illegal (BitVec.ofNat 64 i)
      | none => .ok (s.reenter c.t c.b m)

/-- MKILL (R191). -/
def slotMkill (m : MReg) (c : SlotCtx) (s : State) : SlotRes :=
  let h := (c.cur s).hd m
  if h.active || h.resumable then
    .ok (s.setTile c.t (((s.tile c.t).dropUid h.uid).setBerth c.b ((c.cur s).setHd m { h with st := .killed })))
  else .ok s

/-! ### STEER and MERGE (R210) -/

/-- STEER and MERGE: D[19:0] is SEQ0, B holds the tag and the handle. -/
def SlotCtx.issueSteer (c : SlotCtx) (s : State) (d a b : GReg) (op : Nat) (check : BitVec 512 → DescCheck) : SlotRes :=
  if wbits (c.g d) 63 20 ≠ 0 then c.badOperand (c.g d)
  else if wbits (c.g b) 63 35 ≠ 0 then c.badOperand (c.g b)
  else c.issueMacro s ((c.g b).extractLsb' 32 3) a op 0 0 (fun _ => 0#128 ++ (c.g b ++ c.g d)) check

/-- STEER (R210, R211). -/
def slotSteer (d a b : GReg) (c : SlotCtx) (s : State) : SlotRes := c.issueSteer s d a b 28 checkSteer

/-- MERGE (R210, R212). -/
def slotMerge (d a b : GReg) (c : SlotCtx) (s : State) : SlotRes := c.issueSteer s d a b 29 checkMerge

end Sys2Proof.Machine
end

