-- ==== Sys2Proof/Machine/Net.lean ====
section
/-!
DEFINITION. Machine/Net.lean: publications, subscriptions, streams and barriers as slots issue them (R194 to R205, R219, R220,
R268).
-/
namespace Sys2Proof.Machine

/-- The binding that issues a slot. -/
def SlotCtx.who (c : SlotCtx) (s : State) : Issuer := s.issuer c.t c.b

/-- The tile with a message entered in the egress queue, and its source on the scoreboard (R197, R201). -/
def Tile.enqueueMsg (x : Tile) (m : Msg) : Tile :=
  { x with qEgress := x.qEgress ++ [.msg m],
           score := x.score ++ [{ owner := m.uid, mac := false, ranges := [winRange m.src m.len] }] }

/-- A message of the issuing slot, its bytes still to be copied. -/
def SlotCtx.message (c : SlotCtx) (s : State) (strm : Bool) (name : Word) (tag : BitVec 32) (src len : Nat)
    (sseq : BitVec 20) : Msg :=
  { uid := s.uid, strm, name, tag, head := none, src, len, bytes := none, sseq, who := c.who s }

/-! ### PUB (R201) -/

/-- The length in bytes that B gives PUB. -/
def pubLen (b : Word) : Nat := wbits b 46 32

/-- Whether B of PUB is within its limits. -/
def pubOk (b : Word) : Bool :=
  wbits b 63 47 == 0 && decide (32 ≤ pubLen b) && decide (pubLen b ≤ 16384) && pubLen b % 32 == 0

/-- PUB: its message enters the egress queue (R201). -/
def slotPub (d a b : GReg) (c : SlotCtx) (s : State) : SlotRes :=
  if !pubOk (c.g b) then c.badOperand (c.g b)
  else match c.record (c.g a) (pubLen (c.g b)) 32 with
    | .error r => r
    | .ok off =>
      let m := c.message s false (c.g d) ((c.g b).extractLsb' 0 32) off (pubLen (c.g b)) 0
      .ok (c.updTile { s with uid := s.uid + 1 } fun x => x.enqueueMsg m)

/-! ### SUB and UNSUB (R198, R199, R203, R204) -/

/-- Whether a frame and a slot may be subscribed: the frame is live on this tile, and the slot is of kind `value` or `tile`
(R203, R240). -/
def SlotCtx.slotSubscribable (c : SlotCtx) (s : State) (b : Word) : Bool :=
  let y := (s.tile c.t).frame (wbits b 39 32)
  let k := wbits b 43 40
  y.st != .free && match s.tmpl c.t y.tidx with
    | some m => decide (k < m.nslot.toNat) && decide (m.kind k < 2)
    | none => false

/-- A subscription record within its limits (R203). -/
def subRecord (addr bop : Word) (x : Nat) : Option SubRec :=
  let w (i : Nat) : Word := BitVec.ofNat 64 (x / 2 ^ (64 * i))
  let r0 := wbits (w 1) 19 0
  let r1 := wbits (w 1) 39 20
  let c0 := wbits (w 2) 19 0
  let c1 := wbits (w 2) 39 20
  let dst := wbits (w 3) 18 0
  let cap := wbits (w 3) 34 19
  let names := (r1 + 1 - r0) * (c1 + 1 - c0)
  if wbits (w 0) 63 26 = 0 ∧ wbits (w 0) 25 24 ≠ 3 ∧ wbits (w 1) 63 40 = 0 ∧ r0 ≤ r1 ∧ wbits (w 2) 63 40 = 0 ∧ c0 ≤ c1
      ∧ wbits (w 3) 63 35 = 0 ∧ 1 ≤ cap ∧ cap ≤ 512 ∧ dst % 32 = 0 ∧ names ≤ 256 ∧ dst + 32 * cap * names ≤ padSize then
    some { addr, bop, tens := (w 0).extractLsb' 0 24, mode := (w 0).extractLsb' 24 2, row0 := (w 1).extractLsb' 0 20,
           row1 := (w 1).extractLsb' 20 20, col0 := (w 2).extractLsb' 0 20, col1 := (w 2).extractLsb' 20 20,
           dst := (w 3).extractLsb' 0 19, cap := (w 3).extractLsb' 19 16, counted := [], strm := none, held := [] }
  else none

/-- The subscription that a slot names, or its trap: reserved bits of B, the frame's conditions where they apply, the record's
place, and its limits. -/
def SlotCtx.subOperand (c : SlotCtx) (s : State) (a b : Word) (live : Bool) : Except SlotRes (State × SubRec) :=
  if wbits b 63 44 ≠ 0 then .error (c.badOperand b)
  else if live && !c.slotSubscribable s b then .error (c.badOperand b)
  else match c.record a 32 32 with
    | .error r => .error r
    | .ok off =>
      let (s, x) := c.windowBytes s off 32
      match subRecord a b x with
      | some r => .ok (s, r)
      | none => .error (c.badOperand a)

/-- The status of a SUB or UNSUB: landed when it is known or when its last answer arrives, posted when D is g0 (R199). -/
def SlotCtx.status (c : SlotCtx) (s : State) (d : GReg) (l : Land) (r : SubRec) (tidx : BitVec 16) (st : SubStart) : State :=
  match st with
  | .now k =>
    if d = 0 then (if k = 0 then s else s.postSubStatus c.t k r tidx)
    else c.land s d (k.setWidth 64) l.toNat 0
  | .op id => if d = 0 then s else c.landWide s (.g d) 0 l.toNat 0 (.answer id)

/-- Where the status of a SUB or UNSUB goes. -/
def SlotCtx.statusGoal (c : SlotCtx) (s : State) (d : GReg) : SubTo :=
  if d = 0 then .post else .berth c.b (c.cur s).bind

/-- SUB (R203, R257, R258). -/
def slotSubNet (l : Land) (d a b : GReg) (c : SlotCtx) (s : State) : SlotRes :=
  match c.subOperand s (c.g a) (c.g b) true with
  | .error r => r
  | .ok (s, r) =>
    let who := c.who s
    let (s, st) := s.startSub c.t who r (c.statusGoal s d)
    .ok (c.status s d l r who.tidx st)

/-- UNSUB (R204, R258). -/
def slotUnsub (l : Land) (d a b : GReg) (c : SlotCtx) (s : State) : SlotRes :=
  match c.subOperand s (c.g a) (c.g b) false with
  | .error r => r
  | .ok (s, r) =>
    let who := c.who s
    let (s, st) := s.startUnsub c.t who r (c.statusGoal s d)
    .ok (c.status s d l r who.tidx st)

/-! ### Streams (R205, R268) -/

/-- The send window of a stream name on a tile. -/
def Tile.stream (x : Tile) (name : Word) : Option StreamTx := x.streams.find? fun w => w.name == name

/-- The length in flits that B gives SEND. -/
def sendLen (b : Word) : Nat := wbits b 13 0
/-- Whether B of SEND is within its limits. -/
def sendOk (b : Word) : Bool := wbits b 63 14 == 0 && decide (1 ≤ sendLen b) && decide (sendLen b ≤ 512)

/-- What the first SEND of a name does on a tile: a window counter at 0, and OPEN to the summit (R268). -/
def State.openStream (s : State) (t : Nat) (who : Issuer) (name : Word) : State :=
  let x := s.tile t
  let s := s.setTile t { x with streams := x.streams ++ [{ name, window := 0, sseq := 0 }] }
  (s.inject t who { typ := 8, vc := 0, name, dest := s.summitOf x.job name, dmod := s.dmodFor x.job name false }).1

/-- SEND: its length leaves the window, and its message, stamped with the stream's next sequence number, enters the egress
queue. A name that would need a 65th window traps with the name as detail (R205, R268). -/
def slotSend (d a b : GReg) (c : SlotCtx) (s : State) : SlotRes :=
  let n := sendLen (c.g b)
  if !sendOk (c.g b) then c.badOperand (c.g b)
  else match (s.tile c.t).stream (c.g d) with
    | none => c.illegal (c.g d)
    | some w =>
      match c.record (c.g a) (32 * n) 32 with
      | .error r => r
      | .ok off =>
        let m := c.message s true (c.g d) 0 off (32 * n) w.sseq
        .ok (c.updTile { s with uid := s.uid + 1 } fun x =>
          ({ x with streams := x.streams.map fun (y : StreamTx) =>
               if y.name = c.g d then { y with window := y.window - n, sseq := y.sseq + 1 } else y }).enqueueMsg m)

/-- GRANT: climbs to the name's summit; a grant of 0 sends nothing (R205, R268). -/
def slotGrant (a b : GReg) (c : SlotCtx) (s : State) : SlotRes :=
  let name := c.g a
  let n := wbits (c.g b) 15 0
  let job := (s.tile c.t).job
  if wbits (c.g b) 63 16 ≠ 0 then c.badOperand (c.g b)
  else if n = 0 then .ok s
  else
    .ok (s.inject c.t (c.who s)
      { typ := 7, vc := 0, name, aux := BitVec.ofNat 32 n, dest := s.summitOf job name, dmod := s.dmodFor job name false }).1

/-! ### ARRIVE (R219, R220) -/

/-- The GEN of a barrier object that a checked access names, read at its home. -/
def SlotCtx.barrierGen (c : SlotCtx) (s : State) (p : Place) : State × BitVec 32 :=
  if p.win then (s, ((s.tile c.t).padWord p.addr).extractLsb' 32 32)
  else
    let (s, bs) := s.homeBytes (s.asker c.t) p.addr 16
    (s, BitVec.ofNat 32 (leNat (bs.drop 4)))

/-- ARRIVE: checked as a 16-byte store; GEN is captured, and the arrival sets out once its release has been performed (R220, R294). -/
def slotArrive (a : GReg) (c : SlotCtx) (s : State) : SlotRes :=
  let ea := c.g a
  match c.check s ea 16 { write := true, aligned := true, home := true } with
  | .error r => r
  | .ok [] => .ok s
  | .ok (p :: _) =>
    let (s, cap) := c.barrierGen s p
    let w := c.who s
    let r : Arrival := { t := c.t, b := c.b, bind := w.bind, tidx := w.tidx, tag := w.tag, frame := w.frame,
                         job := (s.tile c.t).job, inc := (s.jobOf c.t).inc, addr := ea, win := p.win, pa := p.addr, cap }
    let s := s.pushOp c.t { c.op s (.arrive r) with rel := some (if p.win then .tile else .sys) }
    .ok (c.upd s.nextId fun y => { y with arrives := y.arrives + 1 })

end Sys2Proof.Machine
end

