-- ==== Sys2Proof/Machine/Task.lean ====
section
/-!
DEFINITION. Machine/Task.lean: frames, fills, spawns and tags as slots issue them (R206 to R209), and the slots of the event bank
and of the steer counters (R213 to R218).
-/
namespace Sys2Proof.Machine

/-! ### Frames and tags (R206 to R209) -/

/-- FRAME: a frame on this tile, its index landing in gD (R206, R238). -/
def slotFrame (l : Land) (d a b : GReg) (c : SlotCtx) (s : State) : SlotRes :=
  let tidx : BitVec 16 := (c.g a).extractLsb' 0 16
  if wbits (c.g a) 63 16 ≠ 0 then c.badOperand (c.g a)
  else if wbits (c.g b) 63 32 ≠ 0 then c.badOperand (c.g b)
  else match s.tmpl c.t tidx with
    | none => c.badOperand (c.g a)
    | some m =>
      if !m.list.any fun x => x.toNat == c.t then c.badOperand (c.g a)
      else match s.createFrame c.t tidx ((c.g b).extractLsb' 0 32) none with
        | (_, none) => c.trap 0x0B 0 (tidx.setWidth 64)
        | (s, some f) => .ok (c.land s d (BitVec.ofNat 64 f) l.toNat 0)

/-- FSLOT: the fill goes to the frame engine (R207, R239). -/
def slotFslot (d a b : GReg) (c : SlotCtx) (s : State) : SlotRes :=
  let f : BitVec 8 := (c.g a).extractLsb' 0 8
  let k : BitVec 4 := (c.g a).extractLsb' 8 4
  let y := (s.tile c.t).frame f.toNat
  if wbits (c.g a) 63 12 ≠ 0 then c.badOperand (c.g a)
  else if wbits (c.g b) 63 32 ≠ 0 then c.badOperand (c.g b)
  else if y.st = .free ∨ y.nslot.toNat ≤ k.toNat then c.badOperand (c.g a)
  else if y.tag ≠ (c.g b).extractLsb' 0 32 then c.badOperand (c.g b)
  else
    .ok (c.updTile s fun x => { x with fills := x.fills ++
      [{ frame := f, slot := k, value := c.g d, kind := .fslot, origin := some (.binding (c.cur s).bind) }] })

/-- SPAWN: a SPAWN packet to the tile that the placement gives (R208, R234). -/
def slotSpawn (a b : GReg) (c : SlotCtx) (s : State) : SlotRes :=
  let tidx : BitVec 16 := (c.g a).extractLsb' 0 16
  let tag : BitVec 32 := (c.g b).extractLsb' 0 32
  if wbits (c.g a) 63 16 ≠ 0 then c.badOperand (c.g a)
  else if wbits (c.g b) 63 32 ≠ 0 then c.badOperand (c.g b)
  else match (s.tmpl c.t tidx).bind fun m => m.tileFor tag with
    | none => c.badOperand (c.g a)
    | some dest =>
      .ok (s.inject c.t (c.who s)
        { typ := 10, vc := 0, tag, aux := tidx.setWidth 32, dest := BitVec.ofNat 17 dest, dmod := s.modid }).1

/-- TAGOP's result (R209). -/
def tagResult (a b : Word) : Word :=
  let sum := wbits a 19 0 + wbits b 19 0
  let ctx := if wbit b 63 then wbits b 31 20 else wbits a 31 20
  BitVec.ofNat 64 (sum / 2 ^ 20 * 2 ^ 32 + ctx * 2 ^ 20 + sum % 2 ^ 20)

/-- TAGOP (R209). -/
def slotTagop (l : Land) (d a b : GReg) (c : SlotCtx) (s : State) : SlotRes :=
  if wbits (c.g a) 63 32 ≠ 0 then c.badOperand (c.g a)
  else if wbits (c.g b) 62 32 ≠ 0 ∨ (!wbit (c.g b) 63 ∧ wbits (c.g b) 31 20 ≠ 0) then c.badOperand (c.g b)
  else c.result s d (tagResult (c.g a) (c.g b)) l.toNat 0

/-! ### Steer counters (R213) -/

/-- STSNAP: the 64 counters written and cleared (R12, R213). -/
def slotStsnap (a : GReg) (c : SlotCtx) (s : State) : SlotRes :=
  match c.record (c.g a) 512 64 with
  | .error r => r
  | .ok off =>
    let x := s.tile c.t
    let bs := (List.range 64).flatMap fun i => leBytes 8 (SMap.get 0 x.steer i).toNat
    .ok ((s.setTile c.t { x with steer := [] }).portWrite c.t .bank 3 c.t .linear off bs)

/-! ### The event bank (R214 to R218) -/

/-- Whether a parameter set may be loaded (R332). -/
def psetOk (p : BitVec 256) : Bool :=
  let w := psetWord p
  let arg := w 3
  let (list, n) := fanList p
  wbits (w 0) 63 18 == 0 && wbits (w 1) 63 32 == 0 && wbits (w 2) 63 20 == 0 && decide (wbits (w 2) 1 0 < 2)
    && match psetAct p with
      | 0 => wbits arg 63 31 == 0 && (n == 0 || (list % 16 == 0 && decide (list + 16 * n ≤ padSize)))
      | 1 => wbits arg 63 12 == 0
      | 2 => wbits arg 63 36 == 0
      | _ => false

/-- EVCFG: a parameter set for A[63] = 0, entries for A[63] = 1 (R214, R331, R332). -/
def SlotCtx.evcfg (c : SlotCtx) (s : State) (a b : Word) : SlotRes :=
  if wbit a 63 then
    let n := wbits a 26 13
    let i := wbits a 12 0
    if wbits a 62 27 ≠ 0 ∨ n = 0 ∨ 8192 < i + n then c.badOperand a
    else if wbit b 60 ∨ 64 ≤ wbits b 59 48 then c.badOperand b
    else
      .ok (c.updTile s fun x =>
        { x with bank := (List.range n).foldl (fun k j => k.setEntry (i + j) (Neuron.ofWord b k.t)) x.bank })
  else if wbits a 62 6 ≠ 0 then c.badOperand a
  else match c.record b 32 32 with
    | .error r => r
    | .ok off =>
      let (s, v) := c.windowBytes s off 32
      let p := BitVec.ofNat 256 v
      if !psetOk p then c.badOperand b
      else .ok (c.updTile s fun x => { x with bank := { x.bank with psets := x.bank.psets.setIfInBounds (wbits a 5 0) p } })

/-- EVCFG as the row of a parameter set (R214). -/
def slotEvcfgPset (a b : GReg) (c : SlotCtx) (s : State) : SlotRes := c.evcfg s (c.g a) (c.g b)

/-- EVCFG as the row of entries: one encoding, the function being selected by A[63] (R214). -/
def slotEvcfgEntries (a b : GReg) (c : SlotCtx) (s : State) : SlotRes := c.evcfg s (c.g a) (c.g b)

/-- EVPOST (R215, R330). -/
def slotEvpost (d a b : GReg) (c : SlotCtx) (s : State) : SlotRes :=
  if wbits (c.g d) 39 20 ≠ 0 then c.badOperand (c.g d)
  else if wbits (c.g a) 63 32 ≠ 0 then c.badOperand (c.g a)
  else if wbits (c.g b) 63 32 ≠ 0 then c.badOperand (c.g b)
  else .ok (s.postEvent c.t (c.who s) (c.g d) ((c.g b).setWidth 32) ((c.g a).setWidth 32) false)

/-- EVRD: the entry as stored (R216). -/
def slotEvrd (l : Land) (d a : GReg) (c : SlotCtx) (s : State) : SlotRes :=
  if wbits (c.g a) 63 13 ≠ 0 then c.badOperand (c.g a)
  else
    let k := (s.tile c.t).bank
    c.result s d ((k.entry (wbits (c.g a) 12 0)).word k.t) l.toNat 0

/-- An entry as EVSNAP writes it: its potential brought to the current tick, no tick passed since; the entry of a set with
CAP = 1 does not leak (R217, R339, log entry 30). -/
def Bank.snapWord (k : Bank) (i : Nat) : Word :=
  let n := k.entry i
  let v := if wbit (psetWord (k.psetOf n) 0) 17 then toSigned 32 n.pot.toNat
    else (clampPot (leaked (k.psetOf n) (toSigned 32 n.pot.toNat) (n.since k.t))).1
  ({ n with pot := BitVec.ofInt 32 v, u := k.t }).word k.t

/-- EVSNAP over `n` entries from `i`, clearing them unless A[63] is 1 (R12, R217, R338). -/
def slotEvsnap (a b : GReg) (c : SlotCtx) (s : State) : SlotRes :=
  let n := wbits (c.g a) 26 13
  let i := wbits (c.g a) 12 0
  if wbits (c.g a) 62 27 ≠ 0 ∨ n = 0 ∨ 8192 < i + n then c.badOperand (c.g a)
  else match c.record (c.g b) (8 * n) 8 with
    | .error r => r
    | .ok off =>
      let x := s.tile c.t
      let k := x.bank
      let bs := (List.range n).flatMap fun j => leBytes 8 (k.snapWord (i + j)).toNat
      let k' := if wbit (c.g a) 63 then k
        else (List.range n).foldl (fun q j => q.setEntry (i + j) { q.entry (i + j) with pot := 0, u := q.t }) k
      .ok ((s.setTile c.t { x with bank := k' }).portWrite c.t .bank 3 c.t .linear off bs)

/-- EVTICK: the bank's tick advances by A[15:0] and due events are applied (R218); with ticks from the generator it traps. -/
def slotEvtick (a : GReg) (c : SlotCtx) (s : State) : SlotRes :=
  let k := (s.tile c.t).bank
  if wbits (c.g a) 63 16 ≠ 0 then c.badOperand (c.g a)
  else if k.src then c.illegal 0
  else if wbits (c.g a) 15 0 = 0 then .ok s
  else .ok (s.advanceBank c.t (k.t + (c.g a).setWidth 32))

end Sys2Proof.Machine
end

