-- ==== Sys2Proof/Machine/Scalar.lean ====
section
/-!
DEFINITION. Machine/Scalar.lean: the scalar integer instructions (R105 to R110): what each slot lands.
-/
namespace Sys2Proof.Machine

/-! ### Shared operations (R106, R107) -/

/-- The shift count b[5:0]. -/
def shAmt (b : Word) : Nat := b.toNat % 64

/-- The count of leading zero bits; 64 for 0. -/
def clz64 (a : Word) : Nat := if a = 0 then 64 else 63 - a.toNat.log2

/-- The number of trailing zero bits among the low `n` bits. -/
def ctzFrom (a : Word) : Nat → Nat
  | 0 => 0
  | n + 1 =>
    let r := ctzFrom a n
    if r == n && !a.getLsbD n then n + 1 else r

/-- The count of trailing zero bits; 64 for 0. -/
def ctz64 (a : Word) : Nat := ctzFrom a 64

/-- The field of EXT, EXTU and INS: its lowest bit and its width, cut at bit 63 (R107). -/
def fieldOfB (b : Word) : Nat × Nat := (wbits b 5 0, min (wbits b 11 6 + 1) (64 - wbits b 5 0))

/-- The bits of a field. -/
def fieldBits (a : Word) (p w : Nat) : Nat := a.toNat / 2 ^ p % 2 ^ w

/-- A word with a field replaced by the low bits of another. -/
def insertField (d a : Word) (p w : Nat) : Word :=
  BitVec.ofNat 64 (d.toNat - fieldBits d p w * 2 ^ p + a.toNat % 2 ^ w * 2 ^ p)

/-- A Bool as a word. -/
def boolWord (b : Bool) : Word := if b then 1 else 0

/-! ### Register forms -/

/-- ADD: a + b (R106). -/
def slotAdd (d a b : GReg) (c : SlotCtx) (s : State) : SlotRes :=
  c.result s d (c.g a + c.g b) 1 0

/-- SUB: a − b (R106). -/
def slotSub (d a b : GReg) (c : SlotCtx) (s : State) : SlotRes :=
  c.result s d (c.g a - c.g b) 1 0

/-- MUL: the low 64 bits of a × b (R106). -/
def slotMul (d a b : GReg) (c : SlotCtx) (s : State) : SlotRes :=
  c.result s d (c.g a * c.g b) 3 0

/-- MULH: bits [127:64] of the signed product (R106). -/
def slotMulh (d a b : GReg) (c : SlotCtx) (s : State) : SlotRes :=
  c.result s d (BitVec.ofInt 64 ((c.g a).toInt * (c.g b).toInt / 2 ^ 64)) 3 0

/-- MULHU: bits [127:64] of the unsigned product (R106). -/
def slotMulhu (d a b : GReg) (c : SlotCtx) (s : State) : SlotRes :=
  c.result s d (BitVec.ofNat 64 ((c.g a).toNat * (c.g b).toNat / 2 ^ 64)) 3 0

/-- DIV: the signed quotient (R89, R106). -/
def slotDiv (d a b : GReg) (c : SlotCtx) (s : State) : SlotRes :=
  c.resultF s d (sdivOp 64 (c.g a).toNat (c.g b).toNat) 20

/-- DIVU: the unsigned quotient (R89, R106). -/
def slotDivu (d a b : GReg) (c : SlotCtx) (s : State) : SlotRes :=
  c.resultF s d (udivOp 64 (c.g a).toNat (c.g b).toNat) 20

/-- REM: the signed remainder (R89, R106). -/
def slotRem (d a b : GReg) (c : SlotCtx) (s : State) : SlotRes :=
  c.resultF s d (sremOp 64 (c.g a).toNat (c.g b).toNat) 20

/-- REMU: the unsigned remainder (R89, R106). -/
def slotRemu (d a b : GReg) (c : SlotCtx) (s : State) : SlotRes :=
  c.resultF s d (uremOp 64 (c.g a).toNat (c.g b).toNat) 20

/-- AND (R106). -/
def slotAnd (d a b : GReg) (c : SlotCtx) (s : State) : SlotRes :=
  c.result s d (c.g a &&& c.g b) 1 0

/-- OR (R106). -/
def slotOr (d a b : GReg) (c : SlotCtx) (s : State) : SlotRes :=
  c.result s d (c.g a ||| c.g b) 1 0

/-- XOR (R106). -/
def slotXor (d a b : GReg) (c : SlotCtx) (s : State) : SlotRes :=
  c.result s d (c.g a ^^^ c.g b) 1 0

/-- ANDN: a ∧ ¬b (R106). -/
def slotAndn (d a b : GReg) (c : SlotCtx) (s : State) : SlotRes :=
  c.result s d (c.g a &&& ~~~(c.g b)) 1 0

/-- SLL (R106). -/
def slotSll (d a b : GReg) (c : SlotCtx) (s : State) : SlotRes :=
  c.result s d (c.g a <<< shAmt (c.g b)) 1 0

/-- SRL (R106). -/
def slotSrl (d a b : GReg) (c : SlotCtx) (s : State) : SlotRes :=
  c.result s d (c.g a >>> shAmt (c.g b)) 1 0

/-- SRA (R106). -/
def slotSra (d a b : GReg) (c : SlotCtx) (s : State) : SlotRes :=
  c.result s d ((c.g a).sshiftRight (shAmt (c.g b))) 1 0

/-- ROR (R106). -/
def slotRor (d a b : GReg) (c : SlotCtx) (s : State) : SlotRes :=
  c.result s d ((c.g a).rotateRight (shAmt (c.g b))) 1 0

/-- SLL with an immediate count (R108). -/
def slotSllImm (d a : GReg) (n : BitVec 6) (c : SlotCtx) (s : State) : SlotRes :=
  c.result s d (c.g a <<< n.toNat) 1 0

/-- SRL with an immediate count (R108). -/
def slotSrlImm (d a : GReg) (n : BitVec 6) (c : SlotCtx) (s : State) : SlotRes :=
  c.result s d (c.g a >>> n.toNat) 1 0

/-- SRA with an immediate count (R108). -/
def slotSraImm (d a : GReg) (n : BitVec 6) (c : SlotCtx) (s : State) : SlotRes :=
  c.result s d ((c.g a).sshiftRight n.toNat) 1 0

/-- ROR with an immediate count (R108). -/
def slotRorImm (d a : GReg) (n : BitVec 6) (c : SlotCtx) (s : State) : SlotRes :=
  c.result s d ((c.g a).rotateRight n.toNat) 1 0

/-- CLZ (R106). -/
def slotClz (d a : GReg) (c : SlotCtx) (s : State) : SlotRes :=
  c.result s d (BitVec.ofNat 64 (clz64 (c.g a))) 1 0

/-- CTZ (R106). -/
def slotCtz (d a : GReg) (c : SlotCtx) (s : State) : SlotRes :=
  c.result s d (BitVec.ofNat 64 (ctz64 (c.g a))) 1 0

/-- POPC (R106). -/
def slotPopc (d a : GReg) (c : SlotCtx) (s : State) : SlotRes :=
  c.result s d (BitVec.ofNat 64 (popcount 64 (c.g a).toNat)) 1 0

/-- MIN: the signed smaller (R106). -/
def slotMin (d a b : GReg) (c : SlotCtx) (s : State) : SlotRes :=
  c.result s d (if (c.g b).slt (c.g a) then c.g b else c.g a) 1 0

/-- MAX: the signed larger (R106). -/
def slotMax (d a b : GReg) (c : SlotCtx) (s : State) : SlotRes :=
  c.result s d (if (c.g a).slt (c.g b) then c.g b else c.g a) 1 0

/-- MINU: the unsigned smaller (R106). -/
def slotMinu (d a b : GReg) (c : SlotCtx) (s : State) : SlotRes :=
  c.result s d (if (c.g b).ult (c.g a) then c.g b else c.g a) 1 0

/-- MAXU: the unsigned larger (R106). -/
def slotMaxu (d a b : GReg) (c : SlotCtx) (s : State) : SlotRes :=
  c.result s d (if (c.g a).ult (c.g b) then c.g b else c.g a) 1 0

/-- SLT (R106). -/
def slotSlt (d a b : GReg) (c : SlotCtx) (s : State) : SlotRes :=
  c.result s d (boolWord ((c.g a).slt (c.g b))) 1 0

/-- SLTU (R106). -/
def slotSltu (d a b : GReg) (c : SlotCtx) (s : State) : SlotRes :=
  c.result s d (boolWord ((c.g a).ult (c.g b))) 1 0

/-- SEL: a when the old D is not 0, b otherwise (R107). -/
def slotSel (d a b : GReg) (c : SlotCtx) (s : State) : SlotRes :=
  c.result s d (if c.g d ≠ 0 then c.g a else c.g b) 1 0

/-- EXT: a bit field, sign-extended (R107). -/
def slotExt (d a b : GReg) (c : SlotCtx) (s : State) : SlotRes :=
  let (p, w) := fieldOfB (c.g b)
  c.result s d (BitVec.ofInt 64 (toSigned w (fieldBits (c.g a) p w))) 1 0

/-- EXTU: a bit field, zero-extended (R107). -/
def slotExtu (d a b : GReg) (c : SlotCtx) (s : State) : SlotRes :=
  let (p, w) := fieldOfB (c.g b)
  c.result s d (BitVec.ofNat 64 (fieldBits (c.g a) p w)) 1 0

/-- INS: the low bits of a in a field of the old D (R107). -/
def slotIns (d a b : GReg) (c : SlotCtx) (s : State) : SlotRes :=
  let (p, w) := fieldOfB (c.g b)
  c.result s d (insertField (c.g d) (c.g a) p w) 1 0

/-- MADD: the old D plus a × b, modulo 2^64 (R107). -/
def slotMadd (d a b : GReg) (c : SlotCtx) (s : State) : SlotRes :=
  c.result s d (c.g d + c.g a * c.g b) 3 0

/-- MOV (R106). -/
def slotMov (d a : GReg) (c : SlotCtx) (s : State) : SlotRes :=
  c.result s d (c.g a) 1 0

/-- XMOV: gA, of either cluster (R109). -/
def slotXmov (d a : GReg) (c : SlotCtx) (s : State) : SlotRes :=
  c.result s d (c.g a) 1 0

/-! ### Immediate forms (R110) -/

/-- ADDI: a plus the immediate (R110). -/
def slotAddi (d a : GReg) (i : Imm14) (c : SlotCtx) (s : State) : SlotRes :=
  c.result s d (c.g a + c.imm i) 1 0

/-- ANDI: a AND the immediate (R110). -/
def slotAndi (d a : GReg) (i : Imm14) (c : SlotCtx) (s : State) : SlotRes :=
  c.result s d (c.g a &&& c.imm i) 1 0

/-- ORI: a OR the immediate (R110). -/
def slotOri (d a : GReg) (i : Imm14) (c : SlotCtx) (s : State) : SlotRes :=
  c.result s d (c.g a ||| c.imm i) 1 0

/-- XORI: a XOR the immediate (R110). -/
def slotXori (d a : GReg) (i : Imm14) (c : SlotCtx) (s : State) : SlotRes :=
  c.result s d (c.g a ^^^ c.imm i) 1 0

/-- LUI: the immediate × 2^24, modulo 2^64 (R110). -/
def slotLui (d : GReg) (i : Imm14) (c : SlotCtx) (s : State) : SlotRes :=
  c.result s d (c.imm i <<< 24) 1 0

/-- ADDPC: the bundle address plus the immediate (R110). -/
def slotAddpc (d : GReg) (i : Imm14) (c : SlotCtx) (s : State) : SlotRes :=
  c.result s d (c.baddr + c.imm i) 1 0

end Sys2Proof.Machine
end

