-- ==== Sys2Proof/Machine/Float.lean ====
section
/-!
DEFINITION. Machine/Float.lean: the scalar floating instructions (R81, R111, R112).
-/
namespace Sys2Proof.Machine

/-- The floating format that F names. -/
def ffmt : FFmt → FloatFmt
  | .f32 => fp32
  | .f64 => fp64

/-- A floating operand: an FP32 operand is bits [31:0] (R81). -/
def SlotCtx.fop (c : SlotCtx) (f : FFmt) (r : GReg) : Nat := (c.g r).toNat % 2 ^ (ffmt f).width
/-- FCTL.FTZ. -/
def SlotCtx.ftz (c : SlotCtx) : Bool := c.pre.ftz

/-- A sign bit cleared or inverted; bits above the format are cleared (R81, R84). -/
def signOp (f : FloatFmt) (invert : Bool) (x : Nat) : Nat :=
  let top := 2 ^ (f.width - 1)
  if invert then (if x < top then x + top else x - top) else x % top

/-- FADD: RoundNE(a + b) (R111). -/
def slotFadd (f : FFmt) (d a b : GReg) (c : SlotCtx) (s : State) : SlotRes :=
  c.resultF s d (faddOp (ffmt f) c.ftz (c.fop f a) (c.fop f b)) 4

/-- FSUB: RoundNE(a − b) (R111). -/
def slotFsub (f : FFmt) (d a b : GReg) (c : SlotCtx) (s : State) : SlotRes :=
  c.resultF s d (fsubOp (ffmt f) c.ftz (c.fop f a) (c.fop f b)) 4

/-- FMUL: RoundNE(a × b) (R111). -/
def slotFmul (f : FFmt) (d a b : GReg) (c : SlotCtx) (s : State) : SlotRes :=
  c.resultF s d (fmulOp (ffmt f) c.ftz (c.fop f a) (c.fop f b)) 4

/-- FDIV: RoundNE(a / b) (R111). -/
def slotFdiv (f : FFmt) (d a b : GReg) (c : SlotCtx) (s : State) : SlotRes :=
  c.resultF s d (fdivOp (ffmt f) c.ftz (c.fop f a) (c.fop f b)) 14

/-- FFMA: RoundNE(a × b + d), rounded once (R111). -/
def slotFfma (f : FFmt) (d a b : GReg) (c : SlotCtx) (s : State) : SlotRes :=
  c.resultF s d (ffmaOp (ffmt f) c.ftz (c.fop f a) (c.fop f b) (c.fop f d)) 4

/-- FSQRT (R111). -/
def slotFsqrt (f : FFmt) (d a : GReg) (c : SlotCtx) (s : State) : SlotRes :=
  c.resultF s d (fsqrtOp (ffmt f) c.ftz (c.fop f a)) 14

/-- FMIN (R85, R111). -/
def slotFmin (f : FFmt) (d a b : GReg) (c : SlotCtx) (s : State) : SlotRes :=
  c.resultF s d (fminmaxOp (ffmt f) c.ftz false (c.fop f a) (c.fop f b)) 2

/-- FMAX (R85, R111). -/
def slotFmax (f : FFmt) (d a b : GReg) (c : SlotCtx) (s : State) : SlotRes :=
  c.resultF s d (fminmaxOp (ffmt f) c.ftz true (c.fop f a) (c.fop f b)) 2

/-- FCMP: the integer 1 when the condition holds, else 0 (R85, R111). -/
def slotFcmp (k : FCond) (f : FFmt) (d a b : GReg) (c : SlotCtx) (s : State) : SlotRes :=
  let (r, fl) := fcmpOp (ffmt f) c.ftz k (c.fop f a) (c.fop f b)
  c.result s d (boolWord r) 2 fl

/-- FCVT: the conversion that its sub-op names (R82, R112). -/
def slotFcvt (k : FCvt) (f : FFmt) (d a : GReg) (c : SlotCtx) (s : State) : SlotRes :=
  let x := c.fop f a
  let r := match k with
    | .other => fcvtOp (ffmt f) (match f with | .f32 => fp64 | .f64 => fp32) c.ftz x
    | .i64 => fToInt (ffmt f) c.ftz 64 false x
    | .ui64 => fToInt (ffmt f) c.ftz 64 true x
    | .fi64 => intToF (ffmt f) c.ftz (c.g a).toInt
    | .fui64 => intToF (ffmt f) c.ftz (c.g a).toNat
    | .bf16 => fcvtOp (ffmt f) Sys2Proof.Machine.bf16 c.ftz x
    | .fp16 => fcvtOp (ffmt f) Sys2Proof.Machine.fp16 c.ftz x
  c.resultF s d r 4

/-- FABS: the sign bit cleared; no flag (R84, R111). -/
def slotFabs (f : FFmt) (d a : GReg) (c : SlotCtx) (s : State) : SlotRes :=
  c.result s d (BitVec.ofNat 64 (signOp (ffmt f) false (c.fop f a))) 1 0

/-- FNEG: the sign bit inverted; no flag (R84, R111). -/
def slotFneg (f : FFmt) (d a : GReg) (c : SlotCtx) (s : State) : SlotRes :=
  c.result s d (BitVec.ofNat 64 (signOp (ffmt f) true (c.fop f a))) 1 0

end Sys2Proof.Machine
end

