-- ==== Sys2Proof/Machine/Vector.lean ====
section
/-!
DEFINITION. Machine/Vector.lean: the vector instructions (R149 to R166).
-/
namespace Sys2Proof.Machine

/-! ### Lanes (R150, R152) -/

/-- The reading of lanes that a VLT value selects. -/
structure Lanes where
  /-- Bytes of a lane. -/
  w : Nat
  /-- The floating format; none on integer lanes. -/
  fl : Option FloatFmt
  uns : Bool
  sat : Bool
  ftz : Bool
  deriving DecidableEq, Repr

/-- The bytes of a lane of a type code (R150). -/
def typeBytes (lt : Nat) : Nat :=
  match lt with
  | 0 => 4
  | 1 => 2
  | 2 => 2
  | 3 => 8
  | 4 => 1
  | 5 => 2
  | 6 => 4
  | _ => 8

/-- The floating format of a type code. -/
def typeFloat (lt : Nat) : Option FloatFmt :=
  match lt with
  | 0 => some fp32
  | 1 => some fp16
  | 2 => some bf16
  | 3 => some fp64
  | _ => none

/-- The lanes of a slot (R19, R150). -/
def SlotCtx.lanes (c : SlotCtx) : Lanes :=
  let v := c.pre.vlt.toNat
  { w := typeBytes (v % 8), fl := typeFloat (v % 8), uns := bits v 3 3 == 1, sat := bits v 4 4 == 1, ftz := c.pre.ftz }

/-- The number of lanes. -/
def Lanes.count (k : Lanes) : Nat := 64 / k.w
/-- The bits of a lane. -/
def Lanes.width (k : Lanes) : Nat := 8 * k.w

/-- Lane `i` of a register, `w` bytes wide. -/
def laneOf (x : BitVec 512) (w i : Nat) : Nat := x.toNat / 2 ^ (8 * w * i) % 2 ^ (8 * w)

/-- Whether a predicate makes lane `i` active: the bit of its lowest byte (R152). -/
def active (p : Word) (w i : Nat) : Bool := p.getLsbD (w * i)

/-- A register built of lanes. -/
def buildLanes (w n : Nat) (f : Nat → Nat) : BitVec 512 :=
  BitVec.ofNat 512 ((List.range n).foldl (fun a i => a + f i % 2 ^ (8 * w) * 2 ^ (8 * w * i)) 0)

/-- A vector result of `n` lanes of `w` bytes, lane by lane: an inactive lane keeps its old value and raises no flag (R152). -/
def SlotCtx.landLanes (c : SlotCtx) (s : State) (p : PReg) (d : VReg) (w n lat : Nat) (f : Nat → Nat × FFlags) : SlotRes :=
  let m := c.p p
  let old := c.v d
  let fl := (List.range n).foldl (fun a i => if active m w i then a ||| (f i).2 else a) 0
  .ok (c.landV s d (buildLanes w n fun i => if active m w i then (f i).1 else laneOf old w i) lat fl)

/-- An element-wise operation on lanes of vA and vB. -/
def SlotCtx.lanewise (c : SlotCtx) (s : State) (p : PReg) (d a b : VReg) (lat : Nat)
    (f : Lanes → Nat → Nat → Nat → Nat × FFlags) : SlotRes :=
  let k := c.lanes
  c.landLanes s p d k.w k.count lat fun i => f k (laneOf (c.v a) k.w i) (laneOf (c.v b) k.w i) (laneOf (c.v d) k.w i)

/-! ### Lane operations (R153, R154) -/

/-- An integer lane read by its signedness. -/
def Lanes.int (k : Lanes) (x : Nat) : Int := laneInt k.width k.uns x
/-- An integer lane's exact result, wrapped or clamped. -/
def Lanes.give (k : Lanes) (v : Int) : Nat × FFlags := (intResult k.width k.uns k.sat v, 0)

/-- a + b. -/
def laneAdd (k : Lanes) (a b : Nat) : Nat × FFlags :=
  match k.fl with
  | some f => faddOp f k.ftz a b
  | none => k.give (k.int a + k.int b)
/-- a − b. -/
def laneSub (k : Lanes) (a b : Nat) : Nat × FFlags :=
  match k.fl with
  | some f => fsubOp f k.ftz a b
  | none => k.give (k.int a - k.int b)
/-- a × b. -/
def laneMul (k : Lanes) (a b : Nat) : Nat × FFlags :=
  match k.fl with
  | some f => fmulOp f k.ftz a b
  | none => k.give (k.int a * k.int b)
/-- a × b + d. -/
def laneFma (k : Lanes) (a b d : Nat) : Nat × FFlags :=
  match k.fl with
  | some f => ffmaOp f k.ftz a b d
  | none => k.give (k.int d + k.int a * k.int b)
/-- The smaller or the larger. -/
def laneMinMax (k : Lanes) (wantMax : Bool) (a b : Nat) : Nat × FFlags :=
  match k.fl with
  | some f => fminmaxOp f k.ftz wantMax a b
  | none =>
    let takeB := if wantMax then decide (k.int a < k.int b) else decide (k.int b < k.int a)
    (if takeB then b else a, 0)
/-- |a|. -/
def laneAbs (k : Lanes) (a : Nat) : Nat × FFlags :=
  match k.fl with
  | some f => (signOp f false a, 0)
  | none => k.give (k.int a).natAbs
/-- −a. -/
def laneNeg (k : Lanes) (a : Nat) : Nat × FFlags :=
  match k.fl with
  | some f => (signOp f true a, 0)
  | none => k.give (-(k.int a))
/-- a / b (R154). -/
def laneDiv (k : Lanes) (a b : Nat) : Nat × FFlags :=
  match k.fl with
  | some f => fdivOp f k.ftz a b
  | none => if k.int b = 0 then (2 ^ k.width - 1, fIntDz) else k.give ((k.int a).tdiv (k.int b))

/-- VADD (R154). -/
def slotVadd (p : PReg) (d a b : VReg) (c : SlotCtx) (s : State) : SlotRes :=
  c.lanewise s p d a b 4 fun k x y _ => laneAdd k x y
/-- VSUB (R154). -/
def slotVsub (p : PReg) (d a b : VReg) (c : SlotCtx) (s : State) : SlotRes :=
  c.lanewise s p d a b 4 fun k x y _ => laneSub k x y
/-- VMUL (R154). -/
def slotVmul (p : PReg) (d a b : VReg) (c : SlotCtx) (s : State) : SlotRes :=
  c.lanewise s p d a b 4 fun k x y _ => laneMul k x y
/-- VFMA (R154). -/
def slotVfma (p : PReg) (d a b : VReg) (c : SlotCtx) (s : State) : SlotRes :=
  c.lanewise s p d a b 5 laneFma
/-- VMIN (R154). -/
def slotVmin (p : PReg) (d a b : VReg) (c : SlotCtx) (s : State) : SlotRes :=
  c.lanewise s p d a b 4 fun k x y _ => laneMinMax k false x y
/-- VMAX (R154). -/
def slotVmax (p : PReg) (d a b : VReg) (c : SlotCtx) (s : State) : SlotRes :=
  c.lanewise s p d a b 4 fun k x y _ => laneMinMax k true x y
/-- VABS (R154). -/
def slotVabs (p : PReg) (d a : VReg) (c : SlotCtx) (s : State) : SlotRes :=
  c.lanewise s p d a a 4 fun k x _ _ => laneAbs k x
/-- VNEG (R154). -/
def slotVneg (p : PReg) (d a : VReg) (c : SlotCtx) (s : State) : SlotRes :=
  c.lanewise s p d a a 4 fun k x _ _ => laneNeg k x
/-- VDIV: 14 bundles on floating lanes, 20 on integer lanes (R36, R154). -/
def slotVdiv (p : PReg) (d a b : VReg) (c : SlotCtx) (s : State) : SlotRes :=
  c.lanewise s p d a b (if c.lanes.fl.isSome then 14 else 20) fun k x y _ => laneDiv k x y

/-! ### Functions of floating lanes (R151, R155) -/

/-- A function defined only on floating lanes; the trap's detail is VLT (R151). -/
def SlotCtx.floatOnly (c : SlotCtx) (s : State) (p : PReg) (d a : VReg) (lat : Nat)
    (f : FloatFmt → Bool → Nat → Nat × FFlags) : SlotRes :=
  match c.lanes.fl with
  | none => c.illegal (c.pre.vlt.setWidth 64)
  | some g => c.lanewise s p d a a lat fun k x _ _ => f g k.ftz x

/-- VSQRT (R155). -/
def slotVsqrt (p : PReg) (d a : VReg) (c : SlotCtx) (s : State) : SlotRes := c.floatOnly s p d a 14 fsqrtOp
/-- VRCP (R155). -/
def slotVrcp (p : PReg) (d a : VReg) (c : SlotCtx) (s : State) : SlotRes := c.floatOnly s p d a 8 frcpOp
/-- VRSQ (R155). -/
def slotVrsq (p : PReg) (d a : VReg) (c : SlotCtx) (s : State) : SlotRes := c.floatOnly s p d a 8 frsqOp
/-- VEXP (R155). -/
def slotVexp (p : PReg) (d a : VReg) (c : SlotCtx) (s : State) : SlotRes := c.floatOnly s p d a 8 fexpOp
/-- VLOG (R155). -/
def slotVlog (p : PReg) (d a : VReg) (c : SlotCtx) (s : State) : SlotRes := c.floatOnly s p d a 8 flogOp

/-! ### Bits (R156) -/

/-- VAND (R156). -/
def slotVand (p : PReg) (d a b : VReg) (c : SlotCtx) (s : State) : SlotRes :=
  c.lanewise s p d a b 4 fun _ x y _ => (x &&& y, 0)
/-- VOR (R156). -/
def slotVor (p : PReg) (d a b : VReg) (c : SlotCtx) (s : State) : SlotRes :=
  c.lanewise s p d a b 4 fun _ x y _ => (x ||| y, 0)
/-- VXOR (R156). -/
def slotVxor (p : PReg) (d a b : VReg) (c : SlotCtx) (s : State) : SlotRes :=
  c.lanewise s p d a b 4 fun _ x y _ => (x ^^^ y, 0)
/-- VSHL (R156). -/
def slotVshl (p : PReg) (d a b : VReg) (c : SlotCtx) (s : State) : SlotRes :=
  c.lanewise s p d a b 4 fun k x y _ => (if k.width ≤ y then 0 else x * 2 ^ y % 2 ^ k.width, 0)
/-- VSHR (R156). -/
def slotVshr (p : PReg) (d a b : VReg) (c : SlotCtx) (s : State) : SlotRes :=
  c.lanewise s p d a b 4 fun k x y _ => (if k.width ≤ y then 0 else x / 2 ^ y, 0)
/-- VSRA (R156). -/
def slotVsra (p : PReg) (d a b : VReg) (c : SlotCtx) (s : State) : SlotRes :=
  c.lanewise s p d a b 4 fun k x y _ => (wrapInt k.width (toSigned k.width x / 2 ^ min y k.width), 0)
/-- VPOPC (R156). -/
def slotVpopc (p : PReg) (d a : VReg) (c : SlotCtx) (s : State) : SlotRes :=
  c.lanewise s p d a a 4 fun k x _ _ => (popcount k.width x, 0)

/-! ### Compare and select (R157, R158) -/

/-- The conditions of VCMP. -/
inductive VCond | eq | ne | lt | le
  deriving DecidableEq, Repr

/-- A VCMP condition on two lanes, with its flags. -/
def laneCmp (k : Lanes) (q : VCond) (a b : Nat) : Bool × FFlags :=
  match k.fl with
  | some f =>
    (match q with
     | .eq => fcmpOp f k.ftz .eq a b
     | .ne => let (r, fl) := fcmpOp f k.ftz .eq a b; (!r, fl)
     | .lt => fcmpOp f k.ftz .lt a b
     | .le => fcmpOp f k.ftz .le a b)
  | none =>
    (match q with
     | .eq => (k.int a == k.int b, 0)
     | .ne => (k.int a != k.int b, 0)
     | .lt => (decide (k.int a < k.int b), 0)
     | .le => (decide (k.int a ≤ k.int b), 0))

/-- VCMP: every bit of pD that stands for a byte of an active lane (R157). -/
def SlotCtx.vcmp (c : SlotCtx) (s : State) (q : VCond) (p d : PReg) (a b : VReg) : SlotRes :=
  let k := c.lanes
  let m := c.p p
  let r (i : Nat) := laneCmp k q (laneOf (c.v a) k.w i) (laneOf (c.v b) k.w i)
  let fl := (List.range k.count).foldl (fun x i => if active m k.w i then x ||| (r i).2 else x) 0
  let old := c.p d
  let bit (j : Nat) : Bool := if active m k.w (j / k.w) then (r (j / k.w)).1 else old.getLsbD j
  .ok (c.landP s d (BitVec.ofNat 64 ((List.range 64).foldl (fun x j => x + b2n (bit j) * 2 ^ j) 0)) 4 fl)

/-- VCMP.eq (R157). -/
def slotVcmpEq (p d : PReg) (a b : VReg) (c : SlotCtx) (s : State) : SlotRes := c.vcmp s .eq p d a b
/-- VCMP.ne (R157). -/
def slotVcmpNe (p d : PReg) (a b : VReg) (c : SlotCtx) (s : State) : SlotRes := c.vcmp s .ne p d a b
/-- VCMP.lt (R157). -/
def slotVcmpLt (p d : PReg) (a b : VReg) (c : SlotCtx) (s : State) : SlotRes := c.vcmp s .lt p d a b
/-- VCMP.le (R157). -/
def slotVcmpLe (p d : PReg) (a b : VReg) (c : SlotCtx) (s : State) : SlotRes := c.vcmp s .le p d a b

/-- VSEL: the predicate field selects; every lane is written (R158). -/
def slotVsel (p : PReg) (d a b : VReg) (c : SlotCtx) (s : State) : SlotRes :=
  let k := c.lanes
  .ok (c.landV s d (buildLanes k.w k.count fun i =>
    laneOf (if active (c.p p) k.w i then c.v a else c.v b) k.w i) 4 0)

/-! ### Reductions and scans (R159, R160) -/

/-- A tree node: an EMPTY operand passes the other unchanged. -/
def treeNode (f : Nat → Nat → Nat × FFlags) (x y : Option Nat) : Option Nat × FFlags :=
  match x, y with
  | some a, some b => let (r, fl) := f a b; (some r, fl)
  | some a, none => (some a, 0)
  | none, y => (y, 0)

/-- One level of the tree: neighbours are combined. -/
def treeLevel (f : Nat → Nat → Nat × FFlags) : List (Option Nat) → List (Option Nat) × FFlags
  | x :: y :: r =>
    let (z, fl) := treeNode f x y
    let (zs, gl) := treeLevel f r
    (z :: zs, fl ||| gl)
  | xs => (xs, 0)

/-- The tree of R159, over at most 2^n values. -/
def treeOf (f : Nat → Nat → Nat × FFlags) : Nat → List (Option Nat) → Option Nat × FFlags
  | 0, xs => (xs.headD none, 0)
  | n + 1, xs =>
    let (ys, fl) := treeLevel f xs
    let (r, gl) := treeOf f n ys
    (r, fl ||| gl)

/-- b(0) delivered alone (R159). -/
def deliver (k : Lanes) (b : Nat) : Nat × FFlags :=
  match k.fl with
  | none => (b, 0)
  | some f =>
    let v := f.decode k.ftz b
    if v.isNan then (f.nanBits, fInv v.isSnan) else if v.isZero then (f.zeroBits v.neg, 0) else (b, 0)

/-- VREDS and VREDM (R159). -/
def SlotCtx.reduce (c : SlotCtx) (s : State) (p : PReg) (d a b : VReg) (f : Lanes → Nat → Nat → Nat × FFlags) : SlotRes :=
  let k := c.lanes
  let xs := (List.range k.count).map fun i => if active (c.p p) k.w i then some (laneOf (c.v a) k.w i) else none
  let (t, fl) := treeOf (f k) 6 xs
  let b0 := laneOf (c.v b) k.w 0
  let (r, gl) := match t with
    | some x => f k b0 x
    | none => deliver k b0
  .ok (c.landV s d (BitVec.ofNat 512 (r % 2 ^ k.width)) 6 (fl ||| gl))

/-- VREDS (R159). -/
def slotVreds (p : PReg) (d a b : VReg) (c : SlotCtx) (s : State) : SlotRes := c.reduce s p d a b laneAdd
/-- VREDM.max (R159). -/
def slotVredmMax (p : PReg) (d a b : VReg) (c : SlotCtx) (s : State) : SlotRes :=
  c.reduce s p d a b fun k => laneMinMax k true
/-- VREDM.min (R159). -/
def slotVredmMin (p : PReg) (d a b : VReg) (c : SlotCtx) (s : State) : SlotRes :=
  c.reduce s p d a b fun k => laneMinMax k false

/-- The running sums of a scan over lanes `i` up: the sum so far, the lanes left. -/
def scanFrom (k : Lanes) (x old : BitVec 512) (m : Word) : Nat → Nat → Option Nat → List Nat × FFlags
  | 0, _, _ => ([], 0)
  | n + 1, i, acc =>
    if active m k.w i then
      let a := laneOf x k.w i
      let (r, fl) := match acc with
        | some y => laneAdd k y a
        | none => (a, 0)
      let (rs, gl) := scanFrom k x old m n (i + 1) (some r)
      (r :: rs, fl ||| gl)
    else
      let (rs, gl) := scanFrom k x old m n (i + 1) acc
      (laneOf old k.w i :: rs, gl)

/-- VSCAN (R160). -/
def slotVscan (p : PReg) (d a : VReg) (c : SlotCtx) (s : State) : SlotRes :=
  let k := c.lanes
  let (rs, fl) := scanFrom k (c.v a) (c.v d) (c.p p) k.count 0 none
  .ok (c.landV s d (buildLanes k.w k.count fun i => rs.getD i 0) 6 fl)

/-! ### Indices and moves (R161 to R163) -/

/-- VIOTA: the number of active lanes below (R161). -/
def slotViota (p : PReg) (d : VReg) (c : SlotCtx) (s : State) : SlotRes :=
  let k := c.lanes
  c.landLanes s p d k.w k.count 4 fun i =>
    let n := ((List.range i).filter fun j => active (c.p p) k.w j).length
    (match k.fl with
     | some f => (intToF f k.ftz n).1
     | none => n, 0)

/-- VPERM (R162). -/
def slotVperm (p : PReg) (d a b : VReg) (c : SlotCtx) (s : State) : SlotRes :=
  c.lanewise s p d a b 4 fun k _ j _ => (if j < k.count then laneOf (c.v a) k.w j else 0, 0)

/-- VSHUF: bytes, whatever LT is (R162). -/
def slotVshuf (p : PReg) (d a b : VReg) (c : SlotCtx) (s : State) : SlotRes :=
  c.landLanes s p d 1 64 4 fun i =>
    let j := laneOf (c.v b) 1 i
    (if j < 64 then laneOf (c.v a) 1 j else 0, 0)

/-- VBCAST (R163). -/
def slotVbcast (p : PReg) (d : VReg) (b : GReg) (c : SlotCtx) (s : State) : SlotRes :=
  let k := c.lanes
  c.landLanes s p d k.w k.count 4 fun _ => ((c.g b).toNat % 2 ^ k.width, 0)

/-- VMOVS.g (R163). -/
def slotVmovsG (d : GReg) (a : VReg) (b : GReg) (c : SlotCtx) (s : State) : SlotRes :=
  let k := c.lanes
  let i := (c.g b).toNat
  let x := laneOf (c.v a) k.w i
  c.result s d
    (if k.count ≤ i then 0
     else if k.fl.isNone && !k.uns then BitVec.ofInt 64 (toSigned k.width x)
     else BitVec.ofNat 64 x) 4 0

/-- VMOVS.v (R163). -/
def slotVmovsV (d : VReg) (a b : GReg) (c : SlotCtx) (s : State) : SlotRes :=
  let k := c.lanes
  let j := (c.g a).toNat
  .ok (c.landV s d (buildLanes k.w k.count fun i =>
    if i = j then (c.g b).toNat else laneOf (c.v d) k.w i) 4 0)

/-! ### Conversion (R164, R165) -/

/-- One lane converted: source lanes `k`, target type code `ct` with its signedness (R165). -/
def laneCvt (k : Lanes) (ct : Nat) (cuns : Bool) (x : Nat) : Nat × FFlags :=
  match k.fl, typeFloat ct with
  | some f, some g => fcvtOp f g k.ftz x
  | some f, none => fToInt f k.ftz (8 * typeBytes ct) cuns x
  | none, some g => intToF g k.ftz (k.int x)
  | none, none => (intResult (8 * typeBytes ct) cuns k.sat (k.int x), 0)

/-- VCVT (R164). -/
def slotVcvt (p : PReg) (d a : VReg) (c : SlotCtx) (s : State) : SlotRes :=
  let k := c.lanes
  let v := c.pre.vlt.toNat
  let ct := bits v 7 5
  let cuns := bits v 8 8 == 1
  let part := bits v 11 9
  let w := typeBytes ct
  let ls := k.count
  let ld := 64 / w
  if max ls ld / min ls ld ≤ part then c.illegal (c.pre.vlt.setWidth 64)
  else
    let src (i : Nat) : Option Nat :=
      if ld ≤ ls then some (part * ld + i)
      else if part * ls ≤ i ∧ i < part * ls + ls then some (i - part * ls) else none
    c.landLanes s p d w ld 4 fun i =>
      match src i with
      | some j => laneCvt k ct cuns (laneOf (c.v a) k.w j)
      | none => (laneOf (c.v d) w i, 0)

/-! ### Bit planes (R166) -/

/-- The plane count of VPLN and VPLJ. -/
def SlotCtx.planes (c : SlotCtx) (b : GReg) : Option Nat :=
  let j := wbits (c.g b) 3 0
  if 2 ≤ j ∧ j ≤ 8 then some j else none

/-- The word of plane `k` of a split of 64 bytes (R166). -/
def planeWord (x : BitVec 512) (j k : Nat) : Nat :=
  (List.range 64).foldl (fun a e =>
    let v := toSigned 8 (laneOf x 1 e)
    let m := min v.natAbs (2 ^ (j - 1) - 1)
    let bit := if k = 0 then b2n (decide (v < 0)) else if k < j then m / 2 ^ (j - 1 - k) % 2 else 0
    a + bit * 2 ^ e) 0

/-- VPLN (R166). -/
def slotVpln (p : PReg) (d a : VReg) (b : GReg) (c : SlotCtx) (s : State) : SlotRes :=
  match c.planes b with
  | none => c.illegal (c.g b)
  | some j => c.landLanes s p d 8 8 4 fun k => (planeWord (c.v a) j k, 0)

/-- VPLJ (R94, R166). -/
def slotVplj (p : PReg) (d a : VReg) (b : GReg) (c : SlotCtx) (s : State) : SlotRes :=
  match c.planes b with
  | none => c.illegal (c.g b)
  | some j =>
    c.landLanes s p d 1 64 4 fun e =>
      let bit (k : Nat) : Bool := (laneOf (c.v a) 8 k).testBit e
      let m := planeMag bit j (wbit (c.g b) 4)
      (if bit 0 && m != 0 then wrapInt 8 (-(m : Int)) else m, 0)

end Sys2Proof.Machine
end

