-- ==== Sys2Proof/Machine/Slots.lean ====
section
/-!
DEFINITION. Machine/Slots.lean: which operation each slot instruction performs, and in which phase of its bundle (R45).
-/
namespace Sys2Proof.Machine

/-- The phase of an instruction in its bundle (R19, R45, R130): 0 reads of the special registers, 1 loads, 2 stores, atomics and
reductions in slot order, 3 everything else, 4 the writes of the special registers, which no slot of their own bundle reads (R53). -/
def phase : Instr → Fin 5
  | .csrr _ _ | .csrrRsc _ _ => 0
  | .ld _ _ _ _ _ | .ldIndexed _ _ _ _ _ | .lds _ _ _ _ _ | .ldsIndexed _ _ _ _ _ | .ldv _ _ _ _ | .ldx _ _ _ _
  | .ldDAcq _ _ _ _ _ | .tagld _ _ _ _ => 1
  | .st _ _ _ _ | .stIndexed _ _ _ _ | .stv _ _ _ | .stx _ _ _ | .stDRel _ _ _ _ | .mcst _ _ _ | .tagst _ _ _
  | .amo _ _ _ _ _ _ | .amos _ _ _ _ _ _ | .red _ _ _ _ => 2
  | .csrw _ _ | .csrwFmt _ _ | .csrwShape _ _ | .csrwCctl _ _ | .csrwEvctl _ | .csrwEvwh _ _ => 4
  | _ => 3

/-- The operation of a slot instruction; an event is no slot instruction. -/
def slotOp (i : Instr) (c : SlotCtx) (s : State) : SlotRes :=
  match i with
  | .nop => slotNop c s
  | .jmpi x0 => slotJmpi x0 c s
  | .ret x0 => slotRet x0 c s
  | .yield => slotYield c s
  | .done => slotDone c s
  | .trap x0 => slotTrap x0 c s
  | .kchain x0 x1 => slotKchain x0 x1 c s
  | .sys x0 x1 => slotSys x0 x1 c s
  | .brk x0 => slotBrk x0 c s
  | .wfe => slotWfe c s
  | .eret => slotEret c s
  | .tlbi x0 x1 => slotTlbi x0 x1 c s
  | .tpre x0 => slotTpre x0 c s
  | .halt => slotHalt c s
  | .br x0 => slotBr x0 c s
  | .call x0 x1 => slotCall x0 x1 c s
  | .jmp x0 => slotJmp x0 c s
  | .brnZ x0 x1 => slotBrnZ x0 x1 c s
  | .brnNz x0 x1 => slotBrnNz x0 x1 c s
  | .brnP x0 x1 x2 => slotBrnP x0 x1 x2 c s
  | .loop x0 x1 => slotLoop x0 x1 c s
  | .loopi x0 x1 => slotLoopi x0 x1 c s
  | .add x0 x1 x2 => slotAdd x0 x1 x2 c s
  | .sub x0 x1 x2 => slotSub x0 x1 x2 c s
  | .mul x0 x1 x2 => slotMul x0 x1 x2 c s
  | .mulh x0 x1 x2 => slotMulh x0 x1 x2 c s
  | .mulhu x0 x1 x2 => slotMulhu x0 x1 x2 c s
  | .div x0 x1 x2 => slotDiv x0 x1 x2 c s
  | .divu x0 x1 x2 => slotDivu x0 x1 x2 c s
  | .rem x0 x1 x2 => slotRem x0 x1 x2 c s
  | .remu x0 x1 x2 => slotRemu x0 x1 x2 c s
  | .and x0 x1 x2 => slotAnd x0 x1 x2 c s
  | .or x0 x1 x2 => slotOr x0 x1 x2 c s
  | .xor x0 x1 x2 => slotXor x0 x1 x2 c s
  | .andn x0 x1 x2 => slotAndn x0 x1 x2 c s
  | .sll x0 x1 x2 => slotSll x0 x1 x2 c s
  | .srl x0 x1 x2 => slotSrl x0 x1 x2 c s
  | .sra x0 x1 x2 => slotSra x0 x1 x2 c s
  | .ror x0 x1 x2 => slotRor x0 x1 x2 c s
  | .sllImm x0 x1 x2 => slotSllImm x0 x1 x2 c s
  | .srlImm x0 x1 x2 => slotSrlImm x0 x1 x2 c s
  | .sraImm x0 x1 x2 => slotSraImm x0 x1 x2 c s
  | .rorImm x0 x1 x2 => slotRorImm x0 x1 x2 c s
  | .clz x0 x1 => slotClz x0 x1 c s
  | .ctz x0 x1 => slotCtz x0 x1 c s
  | .popc x0 x1 => slotPopc x0 x1 c s
  | .min x0 x1 x2 => slotMin x0 x1 x2 c s
  | .max x0 x1 x2 => slotMax x0 x1 x2 c s
  | .minu x0 x1 x2 => slotMinu x0 x1 x2 c s
  | .maxu x0 x1 x2 => slotMaxu x0 x1 x2 c s
  | .slt x0 x1 x2 => slotSlt x0 x1 x2 c s
  | .sltu x0 x1 x2 => slotSltu x0 x1 x2 c s
  | .sel x0 x1 x2 => slotSel x0 x1 x2 c s
  | .ext x0 x1 x2 => slotExt x0 x1 x2 c s
  | .extu x0 x1 x2 => slotExtu x0 x1 x2 c s
  | .ins x0 x1 x2 => slotIns x0 x1 x2 c s
  | .madd x0 x1 x2 => slotMadd x0 x1 x2 c s
  | .mov x0 x1 => slotMov x0 x1 c s
  | .xmov x0 x1 => slotXmov x0 x1 c s
  | .addi x0 x1 x2 => slotAddi x0 x1 x2 c s
  | .andi x0 x1 x2 => slotAndi x0 x1 x2 c s
  | .ori x0 x1 x2 => slotOri x0 x1 x2 c s
  | .xori x0 x1 x2 => slotXori x0 x1 x2 c s
  | .lui x0 x1 => slotLui x0 x1 c s
  | .addpc x0 x1 => slotAddpc x0 x1 c s
  | .imx _ => slotNop c s
  | .fadd x0 x1 x2 x3 => slotFadd x0 x1 x2 x3 c s
  | .fsub x0 x1 x2 x3 => slotFsub x0 x1 x2 x3 c s
  | .fmul x0 x1 x2 x3 => slotFmul x0 x1 x2 x3 c s
  | .ffma x0 x1 x2 x3 => slotFfma x0 x1 x2 x3 c s
  | .fdiv x0 x1 x2 x3 => slotFdiv x0 x1 x2 x3 c s
  | .fsqrt x0 x1 x2 => slotFsqrt x0 x1 x2 c s
  | .fmin x0 x1 x2 x3 => slotFmin x0 x1 x2 x3 c s
  | .fmax x0 x1 x2 x3 => slotFmax x0 x1 x2 x3 c s
  | .fcmp x0 x1 x2 x3 x4 => slotFcmp x0 x1 x2 x3 x4 c s
  | .fcvt x0 x1 x2 x3 => slotFcvt x0 x1 x2 x3 c s
  | .fabs x0 x1 x2 => slotFabs x0 x1 x2 c s
  | .fneg x0 x1 x2 => slotFneg x0 x1 x2 c s
  | .csrr x0 x1 => slotCsrr x0 x1 c s
  | .csrrRsc x0 x1 => slotCsrrRsc x0 x1 c s
  | .csrw x0 x1 => slotCsrw x0 x1 c s
  | .csrwFmt x0 x1 => slotCsrwFmt x0 x1 c s
  | .csrwShape x0 x1 => slotCsrwShape x0 x1 c s
  | .csrwCctl x0 x1 => slotCsrwCctl x0 x1 c s
  | .csrwEvctl x0 => slotCsrwEvctl x0 c s
  | .csrwEvwh x0 x1 => slotCsrwEvwh x0 x1 c s
  | .ld x0 x1 x2 x3 x4 => slotLd x0 x1 x2 x3 x4 c s
  | .ldIndexed x0 x1 x2 x3 x4 => slotLdIndexed x0 x1 x2 x3 x4 c s
  | .lds x0 x1 x2 x3 x4 => slotLds x0 x1 x2 x3 x4 c s
  | .ldsIndexed x0 x1 x2 x3 x4 => slotLdsIndexed x0 x1 x2 x3 x4 c s
  | .st x0 x1 x2 x3 => slotSt x0 x1 x2 x3 c s
  | .stIndexed x0 x1 x2 x3 => slotStIndexed x0 x1 x2 x3 c s
  | .tagld x0 x1 x2 x3 => slotTagld x0 x1 x2 x3 c s
  | .tagst x0 x1 x2 => slotTagst x0 x1 x2 c s
  | .mcst x0 x1 x2 => slotMcst x0 x1 x2 c s
  | .ldv x0 x1 x2 x3 => slotLdv x0 x1 x2 x3 c s
  | .stv x0 x1 x2 => slotStv x0 x1 x2 c s
  | .ldx x0 x1 x2 x3 => slotLdx x0 x1 x2 x3 c s
  | .stx x0 x1 x2 => slotStx x0 x1 x2 c s
  | .ldDAcq x0 x1 x2 x3 x4 => slotLdDAcq x0 x1 x2 x3 x4 c s
  | .stDRel x0 x1 x2 x3 => slotStDRel x0 x1 x2 x3 c s
  | .amo x0 x1 x2 x3 x4 x5 => slotAmo x0 x1 x2 x3 x4 x5 c s
  | .amos x0 x1 x2 x3 x4 x5 => slotAmos x0 x1 x2 x3 x4 x5 c s
  | .fence x0 => slotFence x0 c s
  | .vjoin => slotVjoin c s
  | .pref x0 => slotPref x0 c s
  | .flush x0 x1 x2 => slotFlush x0 x1 x2 c s
  | .inval x0 x1 x2 => slotInval x0 x1 x2 c s
  | .red x0 x1 x2 x3 => slotRed x0 x1 x2 x3 c s
  | .vadd x0 x1 x2 x3 => slotVadd x0 x1 x2 x3 c s
  | .vsub x0 x1 x2 x3 => slotVsub x0 x1 x2 x3 c s
  | .vmul x0 x1 x2 x3 => slotVmul x0 x1 x2 x3 c s
  | .vfma x0 x1 x2 x3 => slotVfma x0 x1 x2 x3 c s
  | .vmin x0 x1 x2 x3 => slotVmin x0 x1 x2 x3 c s
  | .vmax x0 x1 x2 x3 => slotVmax x0 x1 x2 x3 c s
  | .vabs x0 x1 x2 => slotVabs x0 x1 x2 c s
  | .vneg x0 x1 x2 => slotVneg x0 x1 x2 c s
  | .vdiv x0 x1 x2 x3 => slotVdiv x0 x1 x2 x3 c s
  | .vsqrt x0 x1 x2 => slotVsqrt x0 x1 x2 c s
  | .vrcp x0 x1 x2 => slotVrcp x0 x1 x2 c s
  | .vrsq x0 x1 x2 => slotVrsq x0 x1 x2 c s
  | .vexp x0 x1 x2 => slotVexp x0 x1 x2 c s
  | .vlog x0 x1 x2 => slotVlog x0 x1 x2 c s
  | .vsel x0 x1 x2 x3 => slotVsel x0 x1 x2 x3 c s
  | .vcvt x0 x1 x2 => slotVcvt x0 x1 x2 c s
  | .vand x0 x1 x2 x3 => slotVand x0 x1 x2 x3 c s
  | .vor x0 x1 x2 x3 => slotVor x0 x1 x2 x3 c s
  | .vxor x0 x1 x2 x3 => slotVxor x0 x1 x2 x3 c s
  | .vshl x0 x1 x2 x3 => slotVshl x0 x1 x2 x3 c s
  | .vshr x0 x1 x2 x3 => slotVshr x0 x1 x2 x3 c s
  | .vsra x0 x1 x2 x3 => slotVsra x0 x1 x2 x3 c s
  | .vreds x0 x1 x2 x3 => slotVreds x0 x1 x2 x3 c s
  | .vredmMax x0 x1 x2 x3 => slotVredmMax x0 x1 x2 x3 c s
  | .vredmMin x0 x1 x2 x3 => slotVredmMin x0 x1 x2 x3 c s
  | .vscan x0 x1 x2 => slotVscan x0 x1 x2 c s
  | .vpopc x0 x1 x2 => slotVpopc x0 x1 x2 c s
  | .viota x0 x1 => slotViota x0 x1 c s
  | .vcmpEq x0 x1 x2 x3 => slotVcmpEq x0 x1 x2 x3 c s
  | .vcmpNe x0 x1 x2 x3 => slotVcmpNe x0 x1 x2 x3 c s
  | .vcmpLt x0 x1 x2 x3 => slotVcmpLt x0 x1 x2 x3 c s
  | .vcmpLe x0 x1 x2 x3 => slotVcmpLe x0 x1 x2 x3 c s
  | .vperm x0 x1 x2 x3 => slotVperm x0 x1 x2 x3 c s
  | .vshuf x0 x1 x2 x3 => slotVshuf x0 x1 x2 x3 c s
  | .vbcast x0 x1 x2 => slotVbcast x0 x1 x2 c s
  | .vpln x0 x1 x2 x3 => slotVpln x0 x1 x2 x3 c s
  | .vplj x0 x1 x2 x3 => slotVplj x0 x1 x2 x3 c s
  | .vmovsG x0 x1 x2 => slotVmovsG x0 x1 x2 c s
  | .vmovsV x0 x1 x2 => slotVmovsV x0 x1 x2 c s
  | .tlw x0 x1 x2 => slotTlw x0 x1 x2 c s
  | .tmm x0 x1 x2 => slotTmm x0 x1 x2 c s
  | .tmmg x0 x1 x2 => slotTmmg x0 x1 x2 c s
  | .trank x0 x1 x2 => slotTrank x0 x1 x2 c s
  | .tspz x0 x1 x2 => slotTspz x0 x1 x2 c s
  | .tdr x0 x1 x2 => slotTdr x0 x1 x2 c s
  | .tz x0 x1 => slotTz x0 x1 c s
  | .tshape x0 x1 => slotTshape x0 x1 c s
  | .gath x0 x1 x2 => slotGath x0 x1 x2 c s
  | .scat x0 x1 x2 => slotScat x0 x1 x2 c s
  | .copy x0 x1 x2 => slotCopy x0 x1 x2 c s
  | .copy2 x0 x1 x2 => slotCopy2 x0 x1 x2 c s
  | .setm x0 x1 x2 x3 => slotSetm x0 x1 x2 x3 c s
  | .qfence x0 x1 x2 => slotQfence x0 x1 x2 c s
  | .mwait x0 => slotMwait x0 c s
  | .mprg x0 x1 => slotMprg x0 x1 c s
  | .mstat x0 x1 => slotMstat x0 x1 c s
  | .mres x0 x1 => slotMres x0 x1 c s
  | .mkill x0 => slotMkill x0 c s
  | .pub x0 x1 x2 => slotPub x0 x1 x2 c s
  | .subNet x0 x1 x2 x3 => slotSubNet x0 x1 x2 x3 c s
  | .unsub x0 x1 x2 x3 => slotUnsub x0 x1 x2 x3 c s
  | .steer x0 x1 x2 => slotSteer x0 x1 x2 c s
  | .merge x0 x1 x2 => slotMerge x0 x1 x2 c s
  | .stsnap x0 => slotStsnap x0 c s
  | .send x0 x1 x2 => slotSend x0 x1 x2 c s
  | .grant x0 x1 => slotGrant x0 x1 c s
  | .arrive x0 => slotArrive x0 c s
  | .frame x0 x1 x2 x3 => slotFrame x0 x1 x2 x3 c s
  | .fslot x0 x1 x2 => slotFslot x0 x1 x2 c s
  | .spawn x0 x1 => slotSpawn x0 x1 c s
  | .tagop x0 x1 x2 x3 => slotTagop x0 x1 x2 x3 c s
  | .evcfgPset x0 x1 => slotEvcfgPset x0 x1 c s
  | .evcfgEntries x0 x1 => slotEvcfgEntries x0 x1 c s
  | .evpost x0 x1 x2 => slotEvpost x0 x1 x2 c s
  | .evrd x0 x1 x2 => slotEvrd x0 x1 x2 c s
  | .evsnap x0 x1 => slotEvsnap x0 x1 c s
  | .evtick x0 => slotEvtick x0 c s
  | _ => .ok s

end Sys2Proof.Machine
end

