-- ==== Sys2Proof/Machine/Issue.lean ====
section
/-!
DEFINITION. Machine/Issue.lean: issuing a bundle: the holds of R247, the freeze of R39, the checks and the slots of R44, and what
follows when the bundle retires (R34, R35, R41, R117, R123, R124); the selection of a berth (R247).
-/
namespace Sys2Proof.Machine

/-! ### Slots in their places -/

/-- An instruction at its slot position, with the extension of a preceding IMX (R28). -/
structure Placed where
  ins : Instr
  pos : Nat
  ext : Option (BitVec 26)
  deriving DecidableEq, Repr

/-- The instructions of a bundle from position `k` on. -/
def placeSlots : Nat → Option (BitVec 26) → List Slot → List Placed
  | _, _, [] => []
  | k, e, x :: r =>
    match x.ins with
    | none => placeSlots (k + 1) none r
    | some (.imx v) => { ins := .imx v, pos := k, ext := none } :: placeSlots (k + 1) (some v) r
    | some i => { ins := i, pos := k, ext := e } :: placeSlots (k + 1) none r

/-- How a placed slot of a bundle issues. -/
def slotCtx (s : State) (t : Nat) (b : Fin 5) (baddr next : Word) (x : Placed) : SlotCtx :=
  { t, b, pre := s.berth t b, baddr, next, slot := x.pos, ext := x.ext }

/-! ### Landing (R35, R37, R39) -/

/-- Whether a result due at or before the berth's next position has not arrived. -/
def Berth.late (y : Berth) : Bool := y.landing.any fun e => decide (e.pos ≤ y.pos) && e.wait != .here

/-- A result that lands: its register is written and its flags become visible (R35, R86). -/
def Berth.landOne (y : Berth) (e : Landing) : Berth :=
  let y := y.write e.dest e.data
  { y with fflags := y.fflags ||| e.flags }

/-- Whether a result lands as the berth stands: one that is due, and while another due one is absent only a result of landing distance 1,
which is written at retirement (R45), when no absent one lands in its register before it (R37). -/
def Berth.lands (y : Berth) (e : Landing) : Bool :=
  let absent (d : Landing) : Bool := decide (d.pos ≤ y.pos) && d.wait != .here
  decide (e.pos ≤ y.pos) && (!y.late || (!e.buffered && !y.landing.any fun d => absent d && d.dest == e.dest))

/-- The berth once the results that are due have landed, in the order of issue (R37). -/
def Berth.settle (y : Berth) : Berth :=
  (y.landing.filter y.lands).foldl Berth.landOne { y with landing := y.landing.filter fun e => !y.lands e }

/-! ### Holds (R38, R134, R139, R140, R168, R189, R197, R201, R205, R217, R220, R221, R222) -/

/-- The bytes that an L slot accesses, for the scoreboard; PREF is not held (R134). -/
def SlotCtx.lRange (c : SlotCtx) (i : Instr) : Option Range :=
  match i with
  | .ld wd _ _ a o | .st wd _ a o => some (ptrRange (c.eaOfs a o wd.bytes) wd.bytes)
  | .ldIndexed wd _ _ a b | .stIndexed wd _ a b => some (ptrRange (c.eaIdx a b) wd.bytes)
  | .lds wd _ _ a o => some (ptrRange (c.eaOfs a o wd.bytes) wd.bytes)
  | .ldsIndexed wd _ _ a b => some (ptrRange (c.eaIdx a b) wd.bytes)
  | .tagld _ _ a o | .tagst _ a o => some (ptrRange (c.eaOfs a o 32 &&& ~~~31#64) 32)
  | .mcst _ a o | .ldDAcq _ _ _ a o | .stDRel _ _ a o => some (ptrRange (c.eaOfs a o 8) 8)
  | .ldv _ _ a o | .stv _ a o | .ldx _ _ a o | .stx _ a o => some (ptrRange (c.eaOfs a o 64) 64)
  | .amo _ wd _ _ a _ | .red _ wd a _ => some (ptrRange (c.g a) wd.bytes)
  | .amos _ _ _ _ a _ => some (ptrRange (c.g a) 8)
  | .flush _ a b | .inval _ a b => some (ptrRange (c.g a) (min (c.g b).toNat 65536))
  | _ => none

/-- The scratchpad bytes that an N slot reads (R197). -/
def SlotCtx.nRange (c : SlotCtx) (i : Instr) : Option Range :=
  match i with
  | .pub _ a b => some (ptrRange (c.g a) (pubLen (c.g b)))
  | .send _ a b => some (ptrRange (c.g a) (32 * sendLen (c.g b)))
  | .subNet _ _ a _ | .unsub _ _ a _ => some (ptrRange (c.g a) 32)
  | .steer _ a _ | .merge _ a _ => some (ptrRange (c.g a) 64)
  | .arrive a => some (ptrRange (c.g a) 16)
  | .evcfgPset a b | .evcfgEntries a b => if wbit (c.g a) 63 then none else some (ptrRange (c.g b) 32)
  | _ => none

/-- Whether an N slot takes a scoreboard entry (R197, R214). -/
def takesEntry : Instr → Bool
  | .pub _ _ _ | .send _ _ _ | .subNet _ _ _ _ | .unsub _ _ _ _ | .steer _ _ _ | .merge _ _ _ => true
  | _ => false

/-- The descriptor bytes that an M slot reads, that of WDESC included (R168, R180). -/
def SlotCtx.mRanges (c : SlotCtx) (s : State) (i : Instr) : List Range :=
  match i with
  | .tmm _ _ a | .tspz _ _ a =>
    let own := ptrRange (c.g a) 64
    (match windowRun (c.g a) 64 with
     | some off => [own, winRange (wbits (descWord ((s.tile c.t).descAt off) 3) 18 0) 64]
     | none => [own])
  | .tlw _ _ a | .tmmg _ _ a | .trank _ _ a | .tdr _ _ a | .gath _ _ a | .scat _ _ a | .copy _ _ a | .copy2 _ _ a
  | .setm _ _ a _ | .mres _ a => [ptrRange (c.g a) 64]
  | .tshape _ a => [ptrRange (c.g a) 32]
  | _ => []

/-- The handle that a slot issues a macro on (R168, R210). -/
def SlotCtx.issues (c : SlotCtx) (i : Instr) : Option MReg :=
  match i with
  | .tlw _ m _ | .tmm _ m _ | .tmmg _ m _ | .trank _ m _ | .tspz _ m _ | .tdr _ m _ | .tz m _ | .tshape m _ | .gath _ m _
  | .scat _ m _ | .copy _ m _ | .copy2 _ m _ | .setm _ m _ _ | .qfence _ m _ => some m
  | .steer _ _ b | .merge _ _ b => some ((c.g b).extractLsb' 32 3)
  | _ => none

/-- The copy queue that the descriptor at an address selects. -/
def SlotCtx.copyEngine (c : SlotCtx) (s : State) (a : Word) : Nat :=
  match windowRun a 64 with
  | some off => 2 + wbits (descWord ((s.tile c.t).descAt off) 0) 33 32
  | none => 2

/-- The queues that a slot enters (R167, R188, R192). -/
def SlotCtx.enters (c : SlotCtx) (s : State) (i : Instr) : List Nat :=
  let masked (m : BitVec 7) : List Nat := (List.range 7).filter m.getLsbD
  match i with
  | .tlw _ _ _ | .tmm _ _ _ | .tmmg _ _ _ | .trank _ _ _ | .tspz _ _ _ | .tdr _ _ _ | .tz _ _ => [0]
  | .gath _ _ _ | .scat _ _ _ => [1]
  | .copy _ _ a | .copy2 _ _ a | .setm _ _ a _ => [c.copyEngine s (c.g a)]
  | .qfence _ _ a => masked ((c.g a).extractLsb' 0 7)
  | .mres m _ =>
    let h := c.pre.hd m
    if !h.resumable then [] else if h.op = 13 then masked h.qmask else [h.eng.toNat]
  | .pub _ _ _ | .send _ _ _ | .steer _ _ _ | .merge _ _ _ => [6]
  | _ => []

/-- Whether an M slot's macro takes a scoreboard entry (R174). -/
def SlotCtx.mEntry (c : SlotCtx) (s : State) (i : Instr) : Bool :=
  match i with
  | .tz _ _ | .qfence _ _ _ | .tshape _ _ => false
  | .mres m _ => (c.pre.hd m).resumable && !((s.tile c.t).macroRanges (c.pre.hd m)).isEmpty
  | i => (c.issues i).isSome

/-- Bytes of the egress buffer in use: staged copies, and the messages queued for it (R201, R266). -/
def Tile.egressUsed (x : Tile) : Nat :=
  (x.egress.map fun e => 32 * e.pkt.payload.length).sum
    + (x.qEgress.map fun q => match q with
        | .msg m => m.len
        | _ => 0).sum

/-- Whether a message finds the egress buffer full (R266). -/
def Tile.egressFull (x : Tile) (n : Nat) : Bool := decide (32768 < x.egressUsed + n)

/-- Whether an EVENT packet that tile `t` posted to its own bank still waits for a place there, before which no later command of the tile
reaches the bank (R324, R333). -/
def State.postWaits (s : State) (t : Nat) : Bool :=
  s.packets.any fun p => p.mt.isNone && p.typ == 9 && p.orig.toNat == t && p.dest.toNat == t && nameTens p.name != 0xFFFFFF

/-- Whether a slot holds its bundle, apart from room in queues and on the scoreboard. -/
def SlotCtx.holds (c : SlotCtx) (s : State) (d : State) (i : Instr) : Bool :=
  let x := s.tile c.t
  let hits (p : ScoreEntry → Bool) (r : Option Range) : Bool := match r with
    | some r => x.scoreHit p r
    | none => false
  hits (fun _ => true) (c.lRange i)
    || hits (fun e => e.mac) (c.nRange i)
    || ((c.mRanges d i).any fun r => x.scoreHit (fun _ => true) r)
    || (match c.issues i with | some m => (c.pre.hd m).active | none => false)
    || (match i with
        | .mwait m => (c.pre.hd m).active
        | .pub _ _ b => pubOk (c.g b) && x.egressFull (pubLen (c.g b))
        | .send d _ b =>
          sendOk (c.g b) && (x.egressFull (32 * sendLen (c.g b)) ||
            match x.stream (c.g d) with
            | some w => decide (w.window < sendLen (c.g b))
            | none => false)
        | .arrive _ => decide (4 ≤ c.pre.arrives)
        | .wfe => !c.pre.latch
        | .sys _ _ => (s.jobOf c.t).sq != 0 && !s.queueRoom (s.jobOf c.t).sq.toNat
        | .evcfgPset _ _ | .evcfgEntries _ _ | .evpost _ _ _ | .evsnap _ _ | .evtick _ => s.postWaits c.t
        | _ => false)

/-- Whether the slots of a bundle want more scoreboard entries or more places of a queue than are free (R134, R168, R197). -/
def State.crowded (s : State) (t : Nat) (d : State) (cs : List (SlotCtx × Instr)) : Bool :=
  let x := s.tile t
  let entries := (cs.filter fun (c, i) => takesEntry i || c.mEntry d i).length
  let places := cs.flatMap fun (c, i) => c.enters d i
  (decide (0 < entries) && decide (128 < x.score.length + entries))
    || places.any fun e => decide (queueDepth e < ((x.queue e).filter QItem.counts).length + (places.filter fun k => k == e).length)

/-- Whether a slot carries the edge of an earlier release of its berth, and so follows it (R292). -/
def carriesEdge : Instr → Bool
  | .pub _ _ _ | .send _ _ _ | .fslot _ _ _ | .spawn _ _ => true
  | _ => false

/-- Whether outstanding operations of the berth hold a slot (R139 to R141, R292; log entry 65). -/
def Tile.holdsSlot (x : Tile) (b : Fin 5) (i : Instr) : Bool :=
  let k := (Slot.ofInstr i).form.cls
  (x.ordered b && (k == some .l || k == some .n)) || (x.releasing b && carriesEdge i)

/-- The window counters that the bundle's SEND makes: the first SEND of a name opens its stream, though it is then held
(R205, R268). -/
def State.openStreams (s : State) (t : Nat) (b : Fin 5) (xs : List Slot) : State :=
  xs.foldl (fun s x => match x.ins with
    | some (.send d _ b') =>
      let y := (s.berth t b).settle
      if sendOk (y.rg b') && ((s.tile t).stream (y.rg d)).isNone && decide ((s.tile t).streams.length < 64) then
        s.openStream t (s.issuer t b) (y.rg d)
      else s
    | _ => s) s

/-! ### Running the slots (R19, R21, R44 step 6, R349) -/

/-- One slot of a phase: its effect, or its answer kept with its position. -/
def runSlot (mk : Placed → SlotCtx) (ph : Fin 5) (a : State × List (Nat × SlotRes)) (x : Placed) :
    State × List (Nat × SlotRes) :=
  if phase x.ins = ph then
    match slotOp x.ins (mk x) a.1 with
    | .ok s => (s, a.2)
    | r => (a.1, a.2 ++ [(x.pos, r)])
  else a

/-- Every slot of a bundle, phase by phase. -/
def runSlots (mk : Placed → SlotCtx) (ps : List Placed) (s : State) : State × List (Nat × SlotRes) :=
  ([0, 1, 2, 3, 4] : List (Fin 5)).foldl (fun a ph => ps.foldl (runSlot mk ph) a) (s, [])

/-- The answer of the lowest slot position; the first one of a position. -/
def lowestAnswer : List (Nat × SlotRes) → Option (Nat × SlotRes)
  | [] => none
  | x :: r => match lowestAnswer r with
    | some y => if y.1 < x.1 then some y else some x
    | none => some x

/-- The state whose scratchpad a macro's descriptor is read from: with the loads and stores of the macro's own bundle done (R174, R176). -/
def State.described (s : State) (mk : Placed → SlotCtx) (ps : List Placed) : State :=
  if ps.any fun p => (Slot.ofInstr p.ins).form.cls == some .m then
    (([0, 1, 2] : List (Fin 5)).foldl (fun a ph => ps.foldl (runSlot mk ph) a) (s, [])).1
  else s

/-- Whether a hold keeps a bundle of a berth from issuing (R247); the operands are read once the results due have landed. -/
def State.bundleHeld (s : State) (t : Nat) (b : Fin 5) (baddr next : Word) (xs : List Slot) : Bool :=
  let y := (s.berth t b).settle
  let used := (y.landing.filter fun e => e.buffered).length
  let ps := placeSlots 1 none xs
  let mk (p : Placed) : SlotCtx := { slotCtx s t b baddr next p with pre := y }
  let d := s.described mk ps
  decide (64 < used + (xs.map fun x => x.form.buffers).sum)
    || (ps.any fun p => (s.tile t).holdsSlot b p.ins)
    || (ps.any fun p => (mk p).holds s d p.ins)
    || s.crowded t d (ps.map fun p => (mk p, p.ins))

/-- The handle that an M slot writes (R210). -/
def mWrites : Instr → Option MReg
  | .tlw _ m _ | .tmm _ m _ | .tmmg _ m _ | .trank _ m _ | .tspz _ m _ | .tdr _ m _ | .tz m _ | .tshape m _ | .gath _ m _
  | .scat _ m _ | .copy _ m _ | .copy2 _ m _ | .setm _ m _ _ | .qfence _ m _ | .mres m _ | .mkill m => some m
  | _ => none

/-- The position at which STEER or MERGE and an M slot of the bundle write one handle: the higher of the two (R210). -/
def steerClash (y : Berth) (ps : List Placed) : Option Nat :=
  firstSome (fun p => match p.ins with
    | .steer _ _ b | .merge _ _ b =>
      firstSome (fun q => if mWrites q.ins = some ((y.rg b).extractLsb' 32 3) then some (max p.pos q.pos) else none) ps
    | _ => none) ps

/-- The slots of a checked bundle, all or none: the state after them, a trap, or a table that no memory holds (R21). -/
def State.runBundle (s : State) (t : Nat) (b : Fin 5) (baddr next : Word) (xs : List Slot) : SlotRes :=
  let ps := placeSlots 1 none xs
  let (s', rs) := runSlots (slotCtx s t b baddr next) ps s
  let clash := match steerClash (s.berth t b) ps with
    | some k => [(k, SlotRes.trap (mkTrap 0x01 k baddr 7 baddr))]
    | none => []
  match lowestAnswer (clash ++ rs) with
  | some (_, r) => r
  | none => .ok s'

/-! ### Retirement -/

/-- Registers of a bank that a bundle reads (R34). -/
def bankReads (rs : List GReg) (k : Nat) : Nat := (rs.filter fun r => r.toNat / 32 * 4 + r.toNat % 4 == k).length

/-- The bubbles of a bundle (R34). -/
def bubblesOf (xs : List Slot) : Nat :=
  let rs := (xs.flatMap fun x => x.form.reads).eraseDups
  (List.range 8).foldl (fun a k => max a ((bankReads rs k + 1) / 2 - 1)) 0

/-- The loop end of R117: the address that fetch goes on at, and the records. -/
def loopEnd (next : Word) : List LoopRec → Word × List LoopRec
  | [] => (next, [])
  | l :: ls =>
    if next ≠ l.exit then (next, l :: ls)
    else if l.count = 1 then loopEnd next ls
    else (l.start, { l with count := l.count - 1, lc := l.lc + 1 } :: ls)

/-- The loops that a taken transfer leaves active: one whose body the target leaves ends with every loop inside it (R118). -/
def dropLoops (target : Word) : List LoopRec → List LoopRec
  | [] => []
  | l :: ls =>
    if (l :: ls).any fun k => !(k.start.ule target && target.ult k.exit) then dropLoops target ls else l :: ls

/-- Where a berth goes on after a bundle: its pending transfer's target, or the next sequential bundle with the loop end
applied (R41, R117, R118). -/
def Berth.advance (y : Berth) (next : Word) : Berth :=
  let seq (y : Berth) : Berth :=
    let (a, ls) := loopEnd (match y.after with | .jump a => a | _ => next) y.loops
    { y with ip := a, loops := ls }
  match y.xfer with
  | none => seq y
  | some x =>
    if x.left ≤ 1 then
      let y := { y with xfer := none }
      match x.target with
      | none => seq y
      | some a => { y with ip := a, loops := if x.endsLoops then dropLoops a y.loops else y.loops }
    else seq { y with xfer := some { x with left := x.left - 1 } }

/-- The bundle's effect once it has retired: an end of the binding, a software trap or a breakpoint, or HALT (R123, R124, R223,
R405). A token that yields goes on at the bundle sequentially after, its loops discarded (R123). -/
def State.finishBundle (s : State) (t : Nat) (b : Fin 5) (baddr next : Word) : State :=
  let y := s.berth t b
  let s := s.setBerth t b { y with after := .nothing }
  match y.after with
  | .done => s.endDoneBinding t b
  | .yield => s.endYieldBinding t b (next.setWidth 19)
  | .softTrap d => s.takeTrap t b (mkTrap 0x0C 0 0 d baddr)
  | .breakpoint d => s.takeTrap t b (mkTrap 0x0D 0 0 d baddr)
  | .halt => s.setTile t { s.tile t with halted := true, stopped := true }
  | _ => s

/-- The energy and the bubbles of a retired bundle (R34, R413). -/
def State.countBundle (s : State) (t : Nat) (xs : List Slot) : State :=
  let x := s.tile t
  let s := s.setTile t { x with bubbles := bubblesOf xs }
  let s := s.charge (fieldOf t) 2 x.job.toNat 1
  let v := (xs.filter fun x => x.form.cls == some .v).length
  if v = 0 then s else s.charge (fieldOf t) 6 x.job.toNat v

/-- A bundle retires (R35, R41, R117, R412); the second delay bundle of an ERET performs it (R224, R353). -/
def State.retireBundle (s : State) (t : Nat) (b : Fin 5) (baddr next : Word) (xs : List Slot) : State :=
  let y := s.berth t b
  let eret := match y.xfer with
    | some x => x.eret && decide (x.left ≤ 1)
    | none => false
  let y := { y with pos := y.pos + 1, retb := y.retb + 1 }
  let s := (s.setBerth t b (y.settle.advance next)).countBundle t xs
  let s := s.finishBundle t b baddr next
  if eret then s.returnFromTrap t baddr 0 else s

/-! ### Issue -/

/-- A bundle of a berth issues: it is held, it freezes the core, it takes a pending fault or a trap, or it retires (R39, R44, R247, R349). -/
def State.issueBundle (s : State) (t : Nat) (b : Fin 5) (baddr next : Word) (f : Except Nat (List Slot)) : State :=
  let xs := match f with
    | .ok xs => xs
    | .error _ => []
  let s := s.openStreams t b xs
  if s.bundleHeld t b baddr next xs then s
  else
    let x := s.tile t
    if (s.berth t b).late then s.setTile t { x with frozen := some b, frzc := satInc x.frzc 1 }
    else
      let s := s.setTile t ({ x with frozen := none }.setBerth b (s.berth t b).settle)
      let y := s.berth t b
      match y.faults with
      | r :: rs => (s.setBerth t b { y with faults := rs }).takeTrap t b { r with baddr, slot := 0 }
      | [] =>
        match f with
        | .error k => s.takeTrap t b (mkTrap 0x01 0 baddr (BitVec.ofNat 64 k) baddr)
        | .ok xs =>
          match s.checkBundle t b baddr next xs with
          | some r => s.takeTrap t b r
          | none =>
            match s.runBundle t b baddr next xs with
            | .ok s' => s'.retireBundle t b baddr next xs
            | .trap r => s.takeTrap t b r
            | .hole pa => { s with stuck := some pa }

/-- Whether the core of a tile runs (R364, R367, R405, R432, R434). -/
def State.coreRuns (s : State) (t : Nat) : Bool :=
  let x := s.tile t
  (s.field (fieldOf t)).powered && x.powered && !x.retired && !x.faulted && !x.stopped && !x.halted && x.gate == .idle

/-- The address of the last bundle of an ERET that waits for the save of its berth (R353). -/
def Berth.returning (y : Berth) : Option Word :=
  match y.xfer with
  | some x => if x.eret ∧ x.left = 0 then x.target else none
  | none => none

/-- An ERET that waits for the save of its berth tried again. -/
def State.retryReturn (s : State) (t : Nat) : State :=
  match (s.berth t 4).returning with
  | some a => s.returnFromTrap t a 0
  | none => s

/-- Whether a berth may issue: its core runs, it is bound and not zeroing, and no macro of it is still to be resumed, and no ERET waits (R193,
R245, R353). -/
def State.berthRuns (s : State) (t : Nat) (b : Fin 5) : Bool :=
  s.coreRuns t && (s.berth t b).status == .bound && !s.zeroing t b && (s.berth t b).resume.isEmpty && (s.berth t b).returning.isNone

/-- A slot instruction issued on the current berth, alone in its bundle, after the extension that stands before it (R17, R28). -/
def issueOne (i : Instr) (s : State) : Host.Outcome State Fault Refusal :=
  if s.berthRuns s.cur s.curB then
    let ip := (s.berth s.cur s.curB).ip
    let xs : List Instr := match s.imx with
      | some v => [.imx v, i, .nop, .nop]
      | none => [i, .nop, .nop, .nop]
    finish ({ s with imx := none }.issueBundle s.cur s.curB ip (ip + 16) (.ok (xs.map Slot.ofInstr)))
  else .next s

/-- An IMX: its extension stands until the slot that follows it issues; after another extension it is misplaced (R28). -/
def issueImx (v : BitVec 26) (s : State) : Host.Outcome State Fault Refusal :=
  match s.imx with
  | some _ => issueOne (.imx v) s
  | none => .next { s with imx := some v }

/-! ### Selecting a berth (R247) -/

/-- The next bundle of a berth: its slots, or why it is malformed, and the address after it. -/
def State.nextOf (s : State) (t : Nat) (b : Fin 5) : Except Nat (List Slot) × Word :=
  let ip := (s.berth t b).ip
  ((s.fetchBundle t b ip).map fun ws => ws.map Slot.ofWord, s.nextBundle t b ip)

/-- Whether a berth has an issuable bundle. -/
def State.issuable (s : State) (t : Nat) (b : Fin 5) : Bool :=
  let (f, next) := s.nextOf t b
  let xs := match f with
    | .ok xs => xs
    | .error _ => []
  (s.berth t b).status == .bound && !s.zeroing t b && (s.berth t b).resume.isEmpty && (s.berth t b).returning.isNone
    && !s.bundleHeld t b (s.berth t b).ip next xs

/-- The berths in the order of selection. -/
def selectOrder (last : BitVec 2) : List (Fin 5) :=
  let k := last.toNat
  [4, ⟨(k + 1) % 4, by omega⟩, ⟨(k + 2) % 4, by omega⟩, ⟨(k + 3) % 4, by omega⟩, ⟨k % 4, by omega⟩]

/-- The streams that the next bundles of the running berths open. -/
def State.openAll (s : State) (t : Nat) : State :=
  ([0, 1, 2, 3, 4] : List (Fin 5)).foldl (fun (s : State) (b : Fin 5) =>
    if (s.berth t b).status = .bound then
      match (s.nextOf t b).1 with
      | .ok xs => s.openStreams t b xs
      | .error _ => s
    else s) s

/-- The next bundle of a berth issues, or freezes the core; a job berth that issues is the last one. -/
def State.issueNext (s : State) (t : Nat) (b : Fin 5) : State :=
  let (f, next) := s.nextOf t b
  let ip := (s.berth t b).ip
  let s := { s with cur := t, curB := b, fresh := s.fresh + 16 }
  let s := if b = 4 ∨ (s.berth t b).late then s else s.setTile t { s.tile t with lastBerth := BitVec.ofNat 2 b.val }
  s.issueBundle t b ip next f

/-- A core's selection in a cycle (R247): the first berth in order that has an issuable bundle issues it. -/
def State.selectNext (s : State) (t : Nat) : State :=
  let s := s.openAll t
  match (selectOrder (s.tile t).lastBerth).find? fun b => s.issuable t b with
  | some b => s.issueNext t b
  | none => s

/-- One cycle of a core (R34, R39, R247, R412): a bubble, a frozen cycle while the absent data have not arrived, or a selection. -/
def State.coreCycle (s : State) (t : Nat) : State :=
  let s := (s.coreTick t).retryReturn t
  let s := ([0, 1, 2, 3, 4] : List (Fin 5)).foldl (fun s b => s.resumeAll t b (s.berth t b).resume) s
  let x := s.tile t
  if 0 < x.bubbles then s.setTile t { x with bubbles := x.bubbles - 1, pbub := satInc x.pbub 1 }
  else match x.frozen with
    | some b =>
      if (s.berth t b).status = .bound ∧ (s.berth t b).late then s.setTile t { x with frzc := satInc x.frzc 1 }
      else (s.setTile t { x with frozen := none }).selectNext t
    | none => s.selectNext t

/-- R15, R44, R247: the core of tile `t` selects a berth, fetches its next bundle and issues it. -/
def execBundleIssue (t : Nat) (s : State) : Host.Outcome State Fault Refusal :=
  if s.coreRuns t then finish (s.coreCycle t) else .next s

end Sys2Proof.Machine
end

