-- ==== Sys2Proof/Machine/Matrix.lean ====
section
/-!
DEFINITION. Machine/Matrix.lean: matrix operands as the engine reads them (R91 to R96, R177), the stationary tile (R178, R179),
the accumulation of R101, and the ranks of R183.
-/
namespace Sys2Proof.Machine

/-! ### Reading operands -/

/-- The little-endian value of `n` window bytes at an offset, as an engine that works for a berth reads them through a view; the
free choices of a hazard are taken by the counter and the granule (R137). -/
def State.engRead (s : State) (t : Nat) (b : Fin 5) (v : View) (off n : Nat) : Nat :=
  leNat ((s.tile t).viewRead (s.fresh + off / 4) (some b) v off n).1

/-- The state whose counter has passed what one element's reads may take, and to which `n` accesses of 64 bytes are charged (R413). -/
def State.engPass (s : State) (t n : Nat) : State := ({ s with fresh := s.fresh + 2 ^ 18 }).chargePad t n

/-- The window offset of block `b`'s header (R93, R177). -/
def headerOff (f : Fmt) (w : Word) (b : Nat) : Nat := if f.packed then opBase w + 64 * b else opHdr w + 2 * b

/-- The window offset of a plane's word of block `b`. -/
def planeOff (f : Fmt) (w : Word) (b p : Nat) : Nat :=
  if f.packed then opBase w + 64 * b + 8 * (p + 1) else opBase w + 8 * opPstr w * p + 8 * b

/-- The 64 values of a block, or a format fault at its header (R92 to R95). -/
def readBlock (rd : Nat → Nat → Nat) (f : Fmt) (w : Word) (sparse : Bool) (b : Nat) : Except Nat (List FVal) :=
  let h := rd (headerOff f w b) 2
  if hdrFault h f.packed sparse || (f.packed && !hdrZb h && rd (headerOff f w b + 2) 6 != 0) then .error (headerOff f w b)
  else
    let words := (List.range f.touched).map fun p => rd (planeOff f w b p) 8
    .ok ((List.range 64).map fun e => planeValue h (fun p => (words.getD p 0).testBit e) f.planes f.rnd)

/-- The first `k` values of the blocks of a list, or the first fault. -/
def readBlocks (rd : Nat → Nat → Nat) (f : Fmt) (w : Word) (sparse : Bool) : List Nat → Except Nat (List FVal)
  | [] => .ok []
  | b :: bs =>
    match readBlock rd f w sparse b with
    | .error a => .error a
    | .ok xs =>
      match readBlocks rd f w sparse bs with
      | .error a => .error a
      | .ok ys => .ok (xs ++ ys)

/-- The `k` elements of line `r` of an operand, or the window offset of a format fault (R95, R177). -/
def readLine (rd : Nat → Nat → Nat) (f : Fmt) (w : Word) (sparse : Bool) (r k : Nat) : Except Nat (List FVal) :=
  if f.plane then readBlocks rd f w sparse ((List.range (k / 64)).map fun i => r * (k / 64) + i)
  else .ok ((List.range k).map fun i => f.float.decode false (rd (opBase w + 64 * r * opRstr w + f.bytes * i) f.bytes))

/-- The 64-byte accesses that the `k` elements of line `r` of an operand take (R413): one for each packed block; for each block of a planar
one its header and the planes that are read. -/
def lineReads (f : Fmt) (w : Word) (r k : Nat) : Nat :=
  if f.plane then k / 64 * (if f.packed then 1 else 1 + f.touched) else padLines (opBase w + 64 * r * opRstr w) (f.bytes * k)

/-- The same of column `j` of the weights of a TLW descriptor, with its masks. -/
def columnReads (f : Fmt) (d : BitVec 512) (j : Nat) : Nat :=
  let k := wbits (descWord d 2) 9 0
  let nsp := wbits (descWord d 2) 12 10
  lineReads f (descWord d 1) j (storedCount nsp k)
    + (if nsp = 0 then 0 else padLines (wbits (descWord d 3) 18 0 + 2 * (j * (k / 12))) (2 * (k / 12)))

/-- The same of a run of columns. -/
def columnsReads (f : Fmt) (d : BitVec 512) (js : List Nat) : Nat := (js.map fun j => columnReads f d j).sum

/-! ### Sparse columns (R96) -/

/-- The values of one group: stored values at the positions of the mask from `i` up, +0 elsewhere, and the values left. -/
def expandGroup (mask : Nat) : Nat → Nat → List FVal → List FVal × List FVal
  | 0, _, xs => ([], xs)
  | n + 1, i, xs =>
    match mask.testBit i, xs with
    | true, x :: r =>
      let (g, r) := expandGroup mask n (i + 1) r
      (x :: g, r)
    | _, xs =>
      let (g, r) := expandGroup mask n (i + 1) xs
      (.fin false 0 0 :: g, r)

/-- The dense values of a column from its masks and its stored values. -/
def expandColumn : List Nat → List FVal → List FVal
  | [], _ => []
  | m :: ms, xs =>
    let (g, r) := expandGroup m 12 0 xs
    g ++ expandColumn ms r

/-- Whether a mask is a format fault for a sparsity. -/
def maskFault (n mask : Nat) : Bool := mask / 2 ^ 12 != 0 || popcount 12 mask != n

/-- Column `j` of the weights that a TLW descriptor names, in dense form, or the window offset of a format fault (R179). The mask
stream is read through the linear view. -/
def readColumn (rd lin : Nat → Nat → Nat) (f : Fmt) (d : BitVec 512) (j : Nat) : Except Nat (List FVal) :=
  let k := wbits (descWord d 2) 9 0
  let nsp := wbits (descWord d 2) 12 10
  match readLine rd f (descWord d 1) (nsp != 0) j (storedCount nsp k) with
  | .error a => .error a
  | .ok xs =>
    if nsp = 0 then .ok xs
    else
      let at_ (g : Nat) : Nat := wbits (descWord d 3) 18 0 + 2 * (j * (k / 12) + g)
      let masks := (List.range (k / 12)).map fun g => lin (at_ g) 2
      match (List.range (k / 12)).find? fun g => maskFault (nspN nsp) (masks.getD g 0) with
      | some g => .error (at_ g)
      | none => .ok (expandColumn masks xs)

/-- A run of columns, or the first fault with the column that met it. -/
def readColumns (rd lin : Nat → Nat → Nat) (f : Fmt) (d : BitVec 512) : List Nat → Except Nat (List (List FVal))
  | [] => .ok []
  | j :: js =>
    match readColumn rd lin f d j with
    | .error a => .error a
    | .ok c =>
      match readColumns rd lin f d js with
      | .error a => .error a
      | .ok cs => .ok (c :: cs)

/-! ### The resident tile (R178, R179) -/

/-- A descriptor with START cleared. -/
def clearStart (d : BitVec 512) : BitVec 512 := d &&& ~~~(0xFFFFFFFF#512)

/-- The format of a handle as part of a tile's identity: its entry without the sparsity. -/
def Handle.formatId (h : Handle) : Word :=
  if h.variant.toNat < 3 then h.variant.setWidth 64 else h.fmt &&& ~~~0x700#64

/-- Whether a resident tile has an identity. -/
def Resident.isFor (r : Resident) (d : BitVec 512) (fmt : Word) : Bool := r.desc == clearStart d && r.fmt == fmt

/-- Whether a TLW descriptor passes the checks of R176 and R179. -/
def tlwPasses (h : Handle) (d : BitVec 512) : Bool :=
  let k := checkTlw h.variant h.format d
  k.bad.isNone && k.ranges.all (fun r => decide (r.2 ≤ padSize)) && k.aligns.all (fun a => a.1 % a.2 == 0)

/-- The whole tile of a TLW descriptor, or a format fault. -/
def loadTile (rd lin : Nat → Nat → Nat) (h : Handle) (d : BitVec 512) : Except Nat Resident :=
  match readColumns rd lin h.format d (List.range 16) with
  | .error a => .error a
  | .ok cs => .ok { desc := clearStart d, fmt := h.formatId, cols := cs }

/-! ### Accumulation (R101) -/

/-- The exact sum of a group's products, and whether it is invalid (R86, R101). -/
def groupSum (a w : List FVal) : FVal × Bool :=
  let ps := (a.zip w).map fun (x : FVal × FVal) => x.1.mul x.2
  let up := ps.any fun p => p.1.isInf && !p.1.neg
  let down := ps.any fun p => p.1.isInf && p.1.neg
  let inv := ps.any fun p => p.2
  if ps.any (fun p => p.1.isNan) then (.nan false, inv || (up && down))
  else if up && down then (.nan false, true)
  else if up then (.inf false, inv)
  else if down then (.inf true, inv)
  else (ps.foldl (fun s p => (s.add p.1).1) (.fin false 0 0), inv)

/-- One group added to an accumulator element. -/
def addGroup (z : Nat) (a w : List FVal) : Nat × FFlags :=
  match groupSum a w with
  | (.nan _, inv) => (0x7FC00000, fInv inv)
  | (.fin _ 0 _, _) => (z, 0)
  | (s, _) => roundRes fp32 false ((fp32.decode false z).add s)

/-- The groups of two operands, `n` of `g` elements each, added in ascending order. -/
def addGroups (g : Nat) : Nat → Nat × FFlags → List FVal → List FVal → Nat × FFlags
  | 0, z, _, _ => z
  | n + 1, (z, fl), a, w =>
    let (z', fl') := addGroup z (a.take g) (w.take g)
    addGroups g n (z', fl ||| fl') (a.drop g) (w.drop g)

/-- z after a row and a column of `k` logical elements. -/
def accumulate (f : Fmt) (k z : Nat) (a w : List FVal) : Nat × FFlags :=
  addGroups f.group ((k + f.group - 1) / f.group) (z, 0) a w

/-- A row of 16 accumulators against the columns of a tile: the new row and its flags. -/
def accumulateRow (f : Fmt) (k : Nat) (z : BitVec 512) (a : List FVal) (cols : List (List FVal)) : BitVec 512 × FFlags :=
  let rs := (List.range 16).map fun j => accumulate f k (z.extractLsb' (32 * j) 32).toNat a (cols.getD j [])
  (BitVec.ofNat 512 (leNat (rs.flatMap fun r => leBytes 4 r.1)), rs.foldl (fun fl r => fl ||| r.2) 0)

/-! ### Accumulator tiles (R180, R181) -/

/-- Row `i` of tile `q` of a berth. -/
def Berth.zRow (y : Berth) (q : BitVec 2) (i : Nat) : BitVec 512 := (y.z.get q.toFin).extractLsb' (512 * i) 512

/-- The berth with a row replaced. -/
def Berth.setZRow (y : Berth) (q : BitVec 2) (i : Nat) (r : BitVec 512) : Berth :=
  let z := y.z.get q.toFin
  let m : BitVec 16384 := (BitVec.allOnes 512).setWidth 16384 <<< (512 * i)
  { y with z := y.z.set q.toNat ((z &&& ~~~m) ||| (r.setWidth 16384 <<< (512 * i))) q.isLt }

/-! ### Draining (R182) and ranking (R183) -/

/-- A row of an accumulator tile in an output type: its bytes and flags. -/
def drainRow (f : Fmt) (r : BitVec 512) : List Byte × FFlags :=
  let xs := (List.range 16).map fun j =>
    let x := (r.extractLsb' (32 * j) 32).toNat
    if f.typ = 2 then (x, (0 : FFlags)) else fcvtOp fp32 f.float false x
  (xs.flatMap fun x => leBytes f.bytes x.1, xs.foldl (fun fl x => fl ||| x.2) 0)

/-- Whether one score ranks above another: NaN lies below −∞, and −0 equals +0. -/
def scoreAbove (a b : FVal) : Bool :=
  match a, b with
  | .nan _, _ => false
  | _, .nan _ => true
  | a, b => a.cmp b == 1

/-- Whether two scores are equal in the order. -/
def scoreEqual (a b : FVal) : Bool := !scoreAbove a b && !scoreAbove b a

/-- rank(i) of a list of scores. -/
def rankOf (xs : List FVal) (i : Nat) : Nat :=
  let x := xs.getD i (.nan false)
  (xs.filter fun y => scoreAbove y x).length + ((xs.take i).filter fun y => scoreEqual y x).length

/-- The 64 rank bytes of a row. -/
def rankBytes (xs : List FVal) : List Byte :=
  (List.range 64).map fun i => if i < xs.length then BitVec.ofNat 8 (rankOf xs i) else 0xFF

/-- The chosen mask of a row. -/
def chosenMask (xs : List FVal) (ksel : Nat) : Nat :=
  (List.range xs.length).foldl (fun m i => if rankOf xs i < ksel then m + 2 ^ i else m) 0

end Sys2Proof.Machine
end

