-- ==== Sys2Proof/Machine/EngineMem.lean ====
section
/-!
DEFINITION. Machine/EngineMem.lean: macros in flight (R169 to R173), and what their elements read and write: checks (R171), the window,
and global memory through the tile data cache, in bursts for a copy (R174, R291, R378).
-/
namespace Sys2Proof.Machine

/-! ### Macros in flight -/

/-- A macro in flight: the berth that issued it, its handle, none once it is detached, and its state. -/
structure Flight where
  b : Fin 5
  m : Option (BitVec 3)
  h : Handle
  who : Issuer
  deriving DecidableEq, Repr

/-- The macro or QFENCE of an identity. -/
def State.flight (s : State) (t u : Nat) : Option Flight :=
  let own := firstSome (fun (b : Fin 5) => firstSome (fun (m : BitVec 3) =>
    let h := (s.berth t b).hd m
    if h.uid = u ∧ h.active then some { b, m := some m, h, who := s.issuer t b } else none)
      ([0, 1, 2, 3, 4, 5, 6, 7] : List (BitVec 3))) ([0, 1, 2, 3, 4] : List (Fin 5))
  match own with
  | some f => some f
  | none => ((s.tile t).detached.find? fun d => d.h.uid == u).map fun d => { b := d.who.berth, m := none, h := d.h, who := d.who }

/-- The state with a macro's handle state replaced. -/
def State.putFlight (s : State) (t : Nat) (f : Flight) (h : Handle) : State :=
  match f.m with
  | some m => s.setBerth t f.b ((s.berth t f.b).setHd m h)
  | none =>
    let x := s.tile t
    s.setTile t { x with detached := x.detached.map fun (d : Detached) => if d.h.uid = f.h.uid then { d with h } else d }

/-- A berth that a detached macro held back is free once no such macro uses its z tiles (R173, R246). -/
def Tile.freeEnded (x : Tile) (b : Fin 5) : Tile :=
  let y := x.berths[b]
  if y.status = .ending ∧ !(x.detached.any fun d => d.who.berth == b && d.h.usesZ) then
    x.setBerth b { y with status := .free }
  else x

/-- A macro that has left its queue with a final handle state; a detached one is forgotten (R171, R173). -/
def State.endFlight (s : State) (t : Nat) (f : Flight) (h : Handle) : State :=
  let s := s.setTile t ((s.tile t).dropUid f.h.uid)
  match f.m with
  | some _ => s.putFlight t f h
  | none =>
    let x := s.tile t
    s.setTile t ({ x with detached := x.detached.filter fun d => d.h.uid != f.h.uid }.freeEnded f.b)

/-- A macro stopped by a fault at its element (R171, R172): a berth fault of the bound binding, else record 0x10. -/
def State.faultFlight (s : State) (t : Nat) (f : Flight) (code : BitVec 4) (bad det : Word) : State :=
  let h := { f.h with st := .faulted, code }
  match f.m with
  | some m =>
    let s := s.endFlight t f h
    let y := s.berth t f.b
    s.setBerth t f.b { y with faults := y.faults ++ [macroFault m h bad det] }
  | none =>
    match (s.tile t).detached.find? fun d => d.h.uid == f.h.uid with
    | some d => (s.endFlight t f h).postAsync t (d.about t) h.eng.toNat (macroFault d.m h bad det)
    | none => s

/-! ### What an element does -/

/-- The outcome of an attempt to perform an element. -/
inductive ElemRes
  /-- Performed: the state, the new PROG and the flags. -/
  | done (s : State) (next : Nat) (flags : FFlags)
  /-- A fault of a CODE (R169), with the address and the detail (R348), and the PROG that it leaves where that is not the element's. -/
  | fault (s : State) (code : BitVec 4) (bad det : Word) (back : Option Nat := none)
  /-- WABSENT, at the first row of the run (R185). -/
  | suspend (s : State) (tag : BitVec 16) (back : Nat)
  /-- It waits, for a translation or for data, with its requests sent. -/
  | wait (s : State)
  /-- A step of its own made, which completes no element. -/
  | hold
  /-- A poisoned read has faulted the tile (R364). -/
  | gone (s : State)
  /-- A walk is directed to a table that no memory holds (R300). -/
  | hole (pa : Nat)
  deriving DecidableEq, Repr

/-- The CODE of a trap code (R169). -/
def elemCode (trap : Nat) : BitVec 4 :=
  match trap with
  | 0x05 => 3
  | 0x03 => 4
  | 0x06 => 5
  | 0x04 => 6
  | _ => 7

/-- The checks of an element's access (R171). A detached macro has no frame whose slot words it may write. -/
def State.elemCheck (s : State) (t : Nat) (f : Flight) (ea : Word) (n : Nat) (k : Access) : Except ElemRes (List Place) :=
  match s.checkAccess t f.b ea n k with
  | .error (.inl (code, bad, det)) => .error (.fault s (elemCode code) bad det)
  | .error (.inr pa) => .error (.hole pa)
  | .ok ps =>
    let v : View := if k.swz then .swizzled else .linear
    match ps.find? fun p => f.m.isNone && k.write && p.win && decide (frameBase ≤ v.phys p.addr) with
    | some p => .error (.fault s 4 p.ea 0)
    | none => .ok ps

/-- An element's window write through a view, checked. -/
def State.elemWindow (s : State) (t : Nat) (f : Flight) (v : View) (off : Nat) (bs : List Byte) : Except ElemRes State :=
  match s.elemCheck t f (BitVec.ofNat 64 (wbase + off)) bs.length { write := true, swz := decide (v = .swizzled) } with
  | .error r => .error r
  | .ok _ => .ok (s.windowWrite t f.b (.mac f.h.uid) v false off bs)

/-! ### Global reads of an element (R174, R378) -/

/-- The state once the TLB holds the translation of every byte of an access; until then the element waits for a walk (R312). -/
def State.awaited (s : State) (t : Nat) (write : Bool) (ps : List Place) : Except ElemRes Unit :=
  match ps.find? fun p => !p.win && (s.translated t (eaVa p.ea) write).isNone with
  | some p => .error (.wait (s.setTile t ((s.tile t).addMiss ((s.tile t).missOf (eaVa p.ea) write))))
  | none => .ok ()

/-- The sectors of global bytes, each with the first of its bytes. -/
def placeSectors : List Place → List (Nat × Place)
  | [] => []
  | p :: r => (p.addr / 32, p) :: (placeSectors r).filter fun x => x.1 != p.addr / 32

/-- The bytes of a sector among some places. -/
def sectorNeed (ps : List Place) (sec : Nat) : BitVec 32 :=
  (ps.filter fun p => p.addr / 32 == sec).foldl (fun m p => m ||| BitVec.ofNat 32 (2 ^ (p.addr % 32))) 0

/-- What an engine has fetched of a sector for a macro. -/
def Tile.fetched (x : Tile) (u sec : Nat) : Option (BitVec 256) :=
  firstSome (fun (f : Fetch) => match f.data with
    | some ds => if f.uid = u ∧ f.sec ≤ sec ∧ sec < f.sec + f.n then ds[sec - f.sec]? else none
    | none => none) x.fetches

/-- The bytes of a sector that an engine has at hand for a macro: what it has fetched, under what the tile holds, of which a burst takes the
dirty bytes alone (R174, R378). -/
def Tile.engineSector (x : Tile) (u : Nat) (burst : Bool) (leaf : Word) (sec : Nat) : BitVec 32 × BitVec 256 :=
  let (m, d) := if bypasses leaf then ((0 : BitVec 32), (0 : BitVec 256)) else if burst then x.dirtyOf sec else x.holdsOf sec
  match x.fetched u sec with
  | some g => (BitVec.allOnes 32, mergeBytes m d g)
  | none => (m, d)

/-- Sectors for which a tile awaits responses: they have room kept for them (R438; log entry 65). -/
def Tile.awaiting (x : Tile) : Nat :=
  ((x.ops.filter MemOp.reading).map fun o => o.sectors.length).sum
    + ((x.fetches.filter fun f => f.data.isNone).map fun f => f.n).sum

/-- Sectors of responses that a tile has room for (log entry 65). -/
def responseRoom : Nat := 2048

/-- Requests that a macro has outstanding. -/
def Tile.requests (x : Tile) (u : Nat) : Nat := (x.fetches.filter fun f => f.uid == u && f.data.isNone).length

/-- A request of an engine for `n` sectors, which serves elements below `till` (R377, R378); it waits while its queue has 8 outstanding or
the tile has no room for the response. -/
def State.request (s : State) (t u : Nat) (leaf : Word) (sec n till : Nat) (keep : Bool) : State :=
  if 8 ≤ (s.tile t).requests u || decide (responseRoom < (s.tile t).awaiting + n) then s
  else
    let (s, tid) := s.takeTid t
    let x := s.tile t
    let s := s.setTile t { x with fetches := x.fetches ++ [{ uid := u, tid, sec, n, till, keep }] }
    s.sendMem t (if bypasses leaf then s.homeCode (32 * sec) else s.nextLevel t sec) x.job 2
      { mkind := 0, tid, key := 32 * sec, n, so := leafKind leaf == 1, mside := leafMside leaf, un := leafKind leaf == 2 } []

/-- How an element's global source is read: sector by sector, kept in the tile data cache; or in bursts, `span` being the bytes of the
source from the element on that are contiguous (R378). -/
structure Burst where
  span : Nat
  /-- The width of an element. -/
  sz : Nat
  deriving DecidableEq, Repr

/-- The sectors of the burst that starts at the sector of byte `p` of an element, byte `i` of it: to the end of the 1 KiB block and of the
span, and, past the caches, of the home; and one past the last element that it serves (R378). -/
def State.burstOf (s : State) (f : Flight) (k : Burst) (p : Place) (i : Nat) : Nat × Nat :=
  let sec := p.addr / 32
  let n := min (32 - sec % 32) ((p.addr + (k.span - i) + 31) / 32 - sec)
  let n := if bypasses p.leaf then
      ((List.range n).takeWhile fun j => s.homeQuay (32 * (sec + j)) == s.homeQuay (32 * sec)).length
    else n
  (n, f.h.prog.toNat + (32 * (sec + n) - p.addr + i + k.sz - 1) / k.sz)

/-- The requests for what an element lacks of its global source. -/
def State.requestFor (s : State) (t : Nat) (f : Flight) (burst : Option Burst) (ps : List Place) : State :=
  (placeSectors ps).foldl (fun s (sec, p) =>
    let x := s.tile t
    let have_ := (x.engineSector f.h.uid burst.isSome p.leaf sec).1
    let asked := x.fetches.any fun g => g.uid == f.h.uid && g.data.isNone && decide (g.sec ≤ sec) && decide (sec < g.sec + g.n)
    if asked || sectorNeed ps sec &&& ~~~have_ == 0 then s
    else match burst with
      | none => s.request t f.h.uid p.leaf sec 1 (f.h.prog.toNat + 1) true
      | some k =>
        let (n, till) := s.burstOf f k p (p.ea - (ps.headD p).ea).toNat
        s.request t f.h.uid p.leaf sec n till false) s

/-- Whether a write of the macro to some bytes is still outstanding. -/
def Tile.unsettled (x : Tile) (u : Nat) (ps : List Place) : Bool :=
  x.ops.any fun o => o.mac == some u && o.access && ps.any fun p => o.win == p.win && decide (o.key ≤ p.addr) && decide (p.addr < o.key + o.n)

/-- The bytes of an element's source: in the window, or in global memory once they are at hand (R174, R378). -/
def State.elemRead (s : State) (t : Nat) (f : Flight) (burst : Option Burst) (ps : List Place) : Except ElemRes (State × List Byte) :=
  match ps with
  | [] => .ok (s, [])
  | p :: _ =>
    if p.win then .ok (s.windowRead t (some f.b) .linear false p.addr ps.length)
    else if (s.tile t).unsettled f.h.uid ps then .error (.wait s)
    else
      let s := s.requestFor t f burst ps
      let x := s.tile t
      let at_ (p : Place) : BitVec 32 × BitVec 256 := x.engineSector f.h.uid burst.isSome p.leaf (p.addr / 32)
      if ps.all fun p => (at_ p).1.getLsbD (p.addr % 32) then
        let s := match ps.find? fun p => SMap.get false s.poison p.addr with
          | some p => s.faultTile t 3 (BitVec.ofNat 64 p.addr) 0 true
          | none => s
        .ok (s.charge (fieldOf t) 8 x.job.toNat 1, ps.map fun p => (at_ p).2.extractLsb' (8 * (p.addr % 32)) 8)
      else .error (.wait s)

/-- One piece of an element's global write: a cached one enters the tile data cache; one past the caches becomes outstanding (R291). -/
def State.elemPiece (s : State) (t : Nat) (f : Flight) (p : Place) (bs : List Byte) : State :=
  if bypasses p.leaf then
    (s.pushOp t { id := s.uid, b := f.b, bind := f.who.bind, mac := some f.h.uid, ea := p.ea, n := bs.length, leaf := p.leaf, key := p.addr,
                  what := .store bs }).nextId
  else s.storeCached t p.leaf p.addr bs

/-- An element's bytes written. -/
def State.elemWrite (s : State) (t : Nat) (f : Flight) (ps : List Place) (bs : List Byte) : State :=
  match ps with
  | [] => s
  | p :: _ =>
    if p.win then s.windowWrite t f.b (.mac f.h.uid) .linear false p.addr bs
    else (pieces 0 ps).foldl (fun s x => s.elemPiece t f x.2.1 ((bs.drop x.1).take x.2.2)) s

end Sys2Proof.Machine
end

