-- ==== Sys2Proof/Machine/Engine.lean ====
section
/-!
DEFINITION. Machine/Engine.lean: the engines of a tile: starting a macro (R167, R188), performing an element (R171, R172, R179 to
R187, R211, R212, R345), and the egress engine's messages (R197, R201, R205).
-/
namespace Sys2Proof.Machine

/-! ### Faults in what is read -/

/-- The format fault at a window offset. -/
def formatFault (s : State) (off : Nat) : ElemRes := .fault s 2 (BitVec.ofNat 64 (wbase + off)) 0

/-- The descriptor fault at a window offset. -/
def descriptorFault (s : State) (off : Nat) : ElemRes := .fault s 8 (BitVec.ofNat 64 (wbase + off)) 0

/-- A matrix row charged (R413). -/
def State.chargeRow (s : State) (t : Nat) (f : Fmt) : State :=
  s.charge (fieldOf t) (if f.typ = 3 then 5 else if f.typ = 2 then 4 else 3) (s.tile t).job.toNat 1

/-! ### The matrix array -/

/-- TLW: column PROG, after the columns below it where the tile does not hold them (R176, R179). -/
def State.elemTlw (s : State) (t : Nat) (f : Flight) : ElemRes :=
  let h := f.h
  let j := h.prog.toNat
  let rd := s.engRead t f.b .swizzled
  let lin := s.engRead t f.b .linear
  let held (r : Resident) : Bool := r.isFor h.desc h.formatId && r.cols.length == j
  let s := s.engPass t (columnsReads h.format h.desc (if (s.tile t).resident.any held then [j] else List.range (j + 1)))
  let put (cs : List (List FVal)) : State :=
    s.setTile t { s.tile t with resident := some { desc := clearStart h.desc, fmt := h.formatId, cols := cs } }
  let below : Except Nat (List (List FVal)) := match (s.tile t).resident with
    | some r => if held r then .ok r.cols
                else readColumns rd lin h.format h.desc (List.range j)
    | none => readColumns rd lin h.format h.desc (List.range j)
  match below with
  | .error a => formatFault s a
  | .ok cs =>
    match readColumn rd lin h.format h.desc j with
    | .error a => formatFault (put cs) a
    | .ok c => .done (put (cs ++ [c])) (j + 1) 0

/-- The columns of a TLW descriptor: those of the resident tile when its identity matches and it is whole, unless a load is
forced; loaded otherwise (R180, R185). -/
def State.tileColumns (s : State) (t : Nat) (f : Flight) (d : BitVec 512) (force : Bool) :
    Except ElemRes (State × List (List FVal)) :=
  let held := match (s.tile t).resident with
    | some r => if !force && r.isFor d f.h.formatId && r.cols.length == 16 then some r.cols else none
    | none => none
  match held with
  | some cs => .ok (s, cs)
  | none =>
    let s' := s.engPass t (columnsReads f.h.format d (List.range 16))
    match loadTile (s.engRead t f.b .swizzled) (s.engRead t f.b .linear) f.h d with
    | .error a => .error (formatFault s' a)
    | .ok r => .ok (s'.setTile t { s.tile t with resident := some r }, r.cols)

/-- TMM and TSPZ: row PROG (R180). -/
def State.elemTmm (s : State) (t : Nat) (f : Flight) : ElemRes :=
  let h := f.h
  let i := h.prog.toNat
  let k := wbits (h.word 2) 15 6
  let wd := wbits (h.word 3) 18 0
  let d := BitVec.ofNat 512 (s.engRead t f.b .linear wd 64)
  let s := s.engPass t (padLines wd 64)
  if !tlwPasses h d || wbits (descWord d 2) 9 0 != k || (wbits (descWord d 2) 12 10 != 0) != (h.op == 4) then
    descriptorFault s wd
  else match s.tileColumns t f d false with
    | .error r => r
    | .ok (s, cols) =>
      let s' := s.engPass t (lineReads h.format (h.word 1) i k)
      match readLine (s.engRead t f.b .swizzled) h.format (h.word 1) false i k with
      | .error a => formatFault s' a
      | .ok a =>
        let y := s.berth t f.b
        let (r, fl) := accumulateRow h.format k (y.zRow h.zsel i) a cols
        .done ((s'.setBerth t f.b (y.setZRow h.zsel i r)).chargeRow t h.format) (i + 1) fl

/-- TZ: row PROG becomes +0 (R181). -/
def State.elemTz (s : State) (t : Nat) (f : Flight) : ElemRes :=
  .done (s.setBerth t f.b ((s.berth t f.b).setZRow f.h.zsel f.h.prog.toNat 0)) (f.h.prog.toNat + 1) 0

/-- The publication that TDR makes: the M rows of Y, row after row, read through the swizzled view (R182, R226). -/
def State.elemPublish (s : State) (t : Nat) (f : Flight) : ElemRes :=
  let h := f.h
  let m := wbits (h.word 2) 5 0
  let n := 16 * h.format.bytes
  if (s.tile t).queueFull 6 || (s.tile t).egressFull (m * n) then .hold
  else
    let bs := (List.range m).flatMap fun r =>
      leBytes n (s.engRead t f.b .swizzled (opBase (h.word 1) + 64 * r * opRstr (h.word 1)) n)
    let msg : Msg := { uid := s.uid, strm := false, name := h.word 3, tag := (h.word 4).extractLsb' 0 32, head := none,
                       src := 0, len := m * n, bytes := some bs, sseq := 0, who := f.who }
    let x := s.tile t
    let reads := m * padLines (opBase (h.word 1)) n
    .done ({ s.engPass t reads with uid := s.uid + 1 }.setTile t { x with qEgress := x.qEgress ++ [QItem.msg msg] }) (m + 1) 0

/-- TDR: row PROG of z to Y, or the publication (R182). -/
def State.elemTdr (s : State) (t : Nat) (f : Flight) : ElemRes :=
  let h := f.h
  let i := h.prog.toNat
  if i = wbits (h.word 2) 5 0 then s.elemPublish t f
  else
    let (bs, fl) := drainRow h.format ((s.berth t f.b).zRow h.zsel i)
    match s.elemWindow t f .swizzled (opBase (h.word 1) + 64 * i * opRstr (h.word 1)) bs with
    | .error r => r
    | .ok s =>
      let y := s.berth t f.b
      .done (if wbit (h.word 2) 6 then s.setBerth t f.b (y.setZRow h.zsel i 0) else s) (i + 1) fl

/-- TRANK: row PROG (R183). -/
def State.elemTrank (s : State) (t : Nat) (f : Flight) : ElemRes :=
  let h := f.h
  let r := h.prog.toNat
  match readLine (s.engRead t f.b .swizzled) h.format (h.word 1) false r (wbits (h.word 2) 22 16) with
  | .error a => formatFault s a
  | .ok xs =>
    let s := s.engPass t (lineReads h.format (h.word 1) r (wbits (h.word 2) 22 16))
    let rank := wbits (h.word 3) 18 0 + 64 * r
    let chosen := wbits (h.word 4) 18 0 + 8 * r
    let cbs := leBytes 8 (chosenMask xs (wbits (h.word 2) 29 23))
    -- both writes are checked before either is made
    let put (on : Bool) (s : State) (off : Nat) (bs : List Byte) : Except ElemRes State :=
      if on then s.elemWindow t f .linear off bs else .ok s
    match put (wbit (h.word 4) 19) s chosen cbs with
    | .error e => e
    | .ok _ =>
      match put (wbit (h.word 3) 19) s rank (rankBytes xs) with
      | .error e => e
      | .ok s =>
        match put (wbit (h.word 4) 19) s chosen cbs with
        | .error e => e
        | .ok s => .done s (r + 1) (fInv (xs.any FVal.isNan))

/-! ### TMMG (R185, R345) -/

/-- The first row of the run that row `n` belongs to, when the rows from `n` up to it have tag `v`. -/
def runStart (tag : Nat → Nat) (v : Nat) : Nat → Nat
  | 0 => 0
  | n + 1 => if tag n = v then runStart tag v n else n + 1

/-- One past the last row of the run, `n` rows being left from row `r`. -/
def runEnd (tag : Nat → Nat) (v : Nat) : Nat → Nat → Nat
  | 0, r => r
  | n + 1, r => if tag r = v then runEnd tag v n (r + 1) else r

/-- The places of the weight bytes at their global source and in the window, run by run, all checked. -/
def State.fetchPlaces (s : State) (t : Nat) (f : Flight) (src : Word) (base : Nat) :
    List (Nat × Nat) → Except ElemRes (List (List Place × List Place))
  | [] => .ok []
  | (off, n) :: rs =>
    match s.elemCheck t f (src + BitVec.ofNat 64 (off - base)) n { write := false } with
    | .error e => .error e
    | .ok from_ =>
      match s.elemCheck t f (BitVec.ofNat 64 (wbase + off)) n { write := true, swz := true } with
      | .error e => .error e
      | .ok dest =>
        match s.fetchPlaces t f src base rs with
        | .error e => .error e
        | .ok ps => .ok ((from_, dest) :: ps)

/-- Expert `v` copied from GW into the region of buffer entry `i`, which then names it (R185). -/
def State.fetchExpert (s : State) (t : Nat) (f : Flight) (i v : Nat) (entry : Word) (d : BitVec 512) : Except ElemRes State :=
  let h := f.h
  let runs := weightRuns h.format d
  let src := h.word 6 + BitVec.ofNat 64 (v * wbits (h.word 7) 31 0)
  match s.fetchPlaces t f src (lowestOff runs) runs with
  | .error e => .error e
  | .ok ps =>
    let named : Word := (entry &&& ~~~0x2FFFF#64) ||| BitVec.ofNat 64 (v + 2 ^ 17)
    match s.elemWindow t f .linear (wbits (h.word 4) 18 0 + 8 * i) (leBytes 8 named.toNat) with
    | .error e => .error e
    | .ok _ =>
      match s.awaited t false (ps.flatMap fun p => p.1) with
      | .error e => .error e
      | .ok _ =>
        match ps.foldl (fun (a : Except ElemRes (State × List (Nat × List Byte))) p => match a with
          | .error e => .error e
          | .ok (s, out) => match s.elemRead t f none p.1 with
            | .error e => .error e
            | .ok (s, bs) => .ok (s, out ++ [((p.2.map fun q => q.addr).headD 0, bs)])) (.ok (s, [])) with
        | .error e => .error e
        | .ok (s, out) =>
          let s := out.foldl (fun s p => s.windowWrite t f.b (.mac h.uid) .swizzled false p.1 p.2) s
          s.elemWindow t f .linear (wbits (h.word 4) 18 0 + 8 * i) (leBytes 8 named.toNat)

/-- A fault of a run as a whole stops TMMG at the run's first row (R185). -/
def ElemRes.backTo (r : ElemRes) (first : Nat) : ElemRes :=
  match r with
  | .fault s code bad det _ => .fault s code bad det (some first)
  | r => r

/-- The tile of a run's expert made ready (R185): the columns, a fault, or WABSENT; `first` is the run's first row. -/
def State.runTile (s : State) (t : Nat) (f : Flight) (v first : Nat) : Except ElemRes (State × List (List FVal)) :=
  let h := f.h
  let lin := s.engRead t f.b .linear
  let n := wbits (h.word 2) 29 26 + 1
  let entry (i : Nat) : Word := BitVec.ofNat 64 (lin (wbits (h.word 4) 18 0 + 8 * i) 8)
  let held := (List.range n).find? fun i => wbit (entry i) 17 && wbits (entry i) 15 0 == v
  let victim := match (List.range n).find? fun i => !wbit (entry i) 17 with
    | some i => some i
    | none => (List.range n).find? fun i => !wbit (entry i) 16
  let desc (i : Nat) : BitVec 512 := BitVec.ofNat 512 (lin (wbits (entry i) 36 18) 64)
  let good (i : Nat) : Bool :=
    wbits (entry i) 63 37 == 0 && tlwPasses h (desc i) && wbits (descWord (desc i) 2) 12 10 == 0
      && wbits (descWord (desc i) 2) 9 0 == wbits (h.word 2) 25 16
  let s := s.engPass t (padLines (wbits (h.word 4) 18 0) (8 * n) + 1)
  match held with
  | some i => if good i then s.tileColumns t f (desc i) true else .error ((descriptorFault s (wbits (entry i) 36 18)).backTo first)
  | none =>
    match victim with
    | none => .error (.suspend s (BitVec.ofNat 16 v) first)
    | some i =>
      if h.word 6 = 0 then .error (.suspend s (BitVec.ofNat 16 v) first)
      else if !good i then .error ((descriptorFault s (wbits (entry i) 36 18)).backTo first)
      else match s.fetchExpert t f i v (entry i) (desc i) with
        | .error e => .error (e.backTo first)
        | .ok s => if (s.tile t).faulted then .error (.gone s) else s.tileColumns t f (desc i) true

/-- TMMG: the row PROG, or the whole of a run whose tag is 0xFFFF (R185). -/
def State.elemTmmg (s : State) (t : Nat) (f : Flight) : ElemRes :=
  let h := f.h
  let r := h.prog.toNat
  let lin := s.engRead t f.b .linear
  let tag (i : Nat) : Nat := lin (wbits (h.word 3) 18 0 + 2 * i) 2
  let v := tag r
  let s := s.engPass t 1
  if v = 0xFFFF then .done s (runEnd tag v (h.total.toNat - r) r) 0
  else
    let ready := match (s.tile t).resident with
      | some q => if (s.tile t).loadedFor = h.uid ∧ r ≠ runStart tag v r then some q.cols else none
      | none => none
    let tile : Except ElemRes (State × List (List FVal)) := match ready with
      | some cs => .ok (s, cs)
      | none => s.runTile t f v (runStart tag v r)
    match tile with
    | .error e => e
    | .ok (s, cols) =>
      let s := s.setTile t { s.tile t with loadedFor := h.uid }
      match readLine (s.engRead t f.b .swizzled) h.format (h.word 1) false r (wbits (h.word 2) 25 16) with
      | .error a => formatFault s a
      | .ok a =>
        let (row, fl) := accumulateRow h.format (wbits (h.word 2) 25 16) 0 a cols
        match (s.engPass t (lineReads h.format (h.word 1) r (wbits (h.word 2) 25 16))).elemWindow t f .linear (wbits (h.word 5) 18 0 + 64 * r * wbits (h.word 5) 31 19) (wideBytes row) with
        | .error e => e
        | .ok s => .done (s.chargeRow t h.format) (r + 1) fl

/-! ### Copies, gathers and scatters (R186, R187, R378) -/

/-- Whether two runs of bytes by effective address share one. -/
def runsMeet (a b : Word) (n : Nat) : Bool := decide (a.toNat < b.toNat + n) && decide (b.toNat < a.toNat + n)

/-- One element moved from one address to another. -/
def State.elemMove (s : State) (t : Nat) (f : Flight) (burst : Option Burst) (src dst : Word) : ElemRes :=
  let sz := elemSize f.h.variant
  let k (write : Bool) : Access := { write, aligned := true, unit := min sz 16 }
  match s.elemCheck t f src sz (k false) with
  | .error e => e
  | .ok ps =>
    match s.elemCheck t f dst sz (k true) with
    | .error e => e
    | .ok qs =>
      match s.awaited t false ps with
      | .error e => e
      | .ok _ =>
        match s.awaited t true qs with
        | .error e => e
        | .ok _ =>
          match s.elemRead t f burst ps with
          | .error e => e
          | .ok (s, bs) => if (s.tile t).faulted then .gone s else .done (s.elemWrite t f qs bs) (f.h.prog.toNat + 1) 0

/-- The source and the destination of element `e` of COPY or COPY2, and the contiguous source from it on: in COPY2 element e is column e
mod NC of row e / NC; where source and destination overlap each element is read by itself (R186, R378). -/
def Handle.copyAt (h : Handle) (e : Nat) : Word × Word × Burst :=
  let sz := elemSize h.variant
  let nc := if h.op = 11 then wbits (h.word 3) 31 0 else h.total.toNat
  let at_ (a : Word) (stride : Nat) : Word :=
    a + BitVec.ofInt 64 ((e / nc : Nat) * toSigned 32 stride) + BitVec.ofNat 64 (sz * (e % nc))
  let left := sz * (nc - e % nc)
  let src := at_ (h.word 2) (wbits (h.word 4) 63 32)
  let dst := at_ (h.word 1) (wbits (h.word 4) 31 0)
  (src, dst, { span := if runsMeet src dst left then sz else left, sz })

/-- COPY and COPY2 (R186). -/
def State.elemCopy (s : State) (t : Nat) (f : Flight) : ElemRes :=
  let (src, dst, k) := f.h.copyAt f.h.prog.toNat
  s.elemMove t f (some k) src dst

/-- A copy queue requests a further burst of the macro that it runs, past those that it has (R378). -/
def State.burstAhead (s : State) (t eng : Nat) : State :=
  match (s.tile t).queue eng with
  | .mac u :: _ =>
    match s.flight t u with
    | none => s
    | some f =>
      let e := ((s.tile t).fetches.filter fun g => g.uid == u).foldl (fun e g => max e g.till) 0
      let (src, _, k) := f.h.copyAt e
      if f.h.st = .running ∧ (f.h.op = 10 ∨ f.h.op = 11) ∧ f.h.prog.toNat < e ∧ e < f.h.total.toNat ∧ k.sz < k.span then
        match s.elemCheck t f src k.sz { write := false, aligned := true, unit := min k.sz 16 } with
        | .ok ps =>
          if ps.all fun p => !p.win && (s.translated t (eaVa p.ea) false).isSome then
            s.requestFor t { f with h := { f.h with prog := BitVec.ofNat 32 e } } (some k) ps
          else s
        | .error _ => s
      else s
  | _ => s

/-- SETM: byte i of every element is byte i mod 8 of the pattern (R186). -/
def State.elemSetm (s : State) (t : Nat) (f : Flight) : ElemRes :=
  let sz := elemSize f.h.variant
  let dst := f.h.word 1 + BitVec.ofNat 64 (sz * f.h.prog.toNat)
  match s.elemCheck t f dst sz { write := true, aligned := true, unit := min sz 16 } with
  | .error e => e
  | .ok qs =>
    match s.awaited t true qs with
    | .error e => e
    | .ok _ =>
      let bs := (List.range sz).map fun i => f.h.aux.extractLsb' (64 + 8 * (i % 8)) 8
      .done (s.elemWrite t f qs bs) (f.h.prog.toNat + 1) 0

/-- GATH and SCAT (R187). -/
def State.elemGather (s : State) (t : Nat) (f : Flight) : ElemRes :=
  let sz := elemSize f.h.variant
  let e := f.h.prog.toNat
  let x := s.engRead t f.b .linear (wbits (f.h.word 4) 18 0 + 4 * e) 4
  let here := BitVec.ofNat 64 (sz * e)
  let there := BitVec.ofNat 64 (sz * x)
  if f.h.op = 8 then (s.engPass t 1).elemMove t f none (f.h.word 2 + there) (f.h.word 1 + here)
  else (s.engPass t 1).elemMove t f none (f.h.word 2 + here) (f.h.word 1 + there)

/-! ### STEER and MERGE (R211, R212) -/

/-- D of STEER and MERGE. -/
def Handle.seqBase (h : Handle) : Nat := h.aux.toNat % 2 ^ 20
/-- The tag in B of STEER and MERGE. -/
def Handle.steerTag (h : Handle) : BitVec 32 := h.aux.extractLsb' 64 32

/-- The steer header (R211). -/
def steerHeader (seq e c gate : Nat) (tag : BitVec 32) : BitVec 256 :=
  BitVec.ofNat 256 (tag.toNat * 2 ^ 64 + gate * 2 ^ 32 + c * 2 ^ 26 + e * 2 ^ 20 + seq)

/-- STEER: the messages of row PROG are staged ahead of whatever follows the STEER in the egress queue (R211). A row whose
messages exceed the egress buffer is staged once the buffer is empty. -/
def State.elemSteer (s : State) (t : Nat) (f : Flight) : ElemRes :=
  let h := f.h
  let r := h.prog.toNat
  let lin := s.engRead t f.b .linear
  let k := wbits (h.word 2) 18 16 + 1
  let rlen := wbits (h.word 1) 33 19
  let ex := wbits (h.word 2) 37 19 + k * r
  let experts := (List.range k).map fun c => (c, lin (ex + c) 1)
  let chosen := experts.filter fun ce => ce.2 != 0xFF
  let seq := (h.seqBase + r) % 2 ^ 20
  match experts.find? fun ce => ce.2 != 0xFF && decide (64 ≤ ce.2) with
  | some ce => descriptorFault (s.engPass t (padLines ex k)) (ex + ce.1)
  | none =>
    let total := chosen.length * (32 + rlen)
    if (s.tile t).egressFull total && (s.tile t).egressUsed != 0 then .hold
    else
      let row := leBytes rlen (lin (wbits (h.word 1) 18 0 + rlen * r) rlen)
      let gate (c : Nat) : Nat :=
        if wbit (h.word 3) 19 then lin (wbits (h.word 3) 18 0 + 4 * (k * r + c)) 4 else 0x3F800000
      let msgs := chosen.map fun ce =>
        QItem.msg { uid := s.uid, strm := false,
                    name := mkName ((h.word 4).extractLsb' 0 24) (BitVec.ofNat 20 ce.2) (BitVec.ofNat 20 seq),
                    tag := h.steerTag, head := some (steerHeader seq ce.2 ce.1 (gate ce.1) h.steerTag), src := 0,
                    len := rlen, bytes := some row, sseq := 0, who := f.who }
      let x := s.tile t
      let reads := padLines ex k + padLines (wbits (h.word 1) 18 0 + rlen * r) rlen
        + (if wbit (h.word 3) 19 then padLines (wbits (h.word 3) 18 0 + 4 * (k * r)) (4 * k) else 0)
      let counts := chosen.foldl (fun m ce => SMap.set 0 m ce.2 (satInc (SMap.get 0 m ce.2) 1)) x.steer
      .done ({ s.engPass t reads with uid := s.uid + 1 }.setTile t { x with qEgress := msgs ++ x.qEgress, steer := counts }) (r + 1) 0

/-- The records of MERGE for a sequence number, in ascending EXPERT, then ascending i, one for each expert. -/
def mergeRecords (rd : Nat → Nat → Nat) (base stride nin seq : Nat) : List Nat :=
  let all := (List.range nin).filterMap fun i =>
    let hd := rd (base + stride * i) 12
    if bits hd 19 0 = seq then some (bits hd 25 20, base + stride * i) else none
  (List.range 64).filterMap fun e => (all.find? fun x => x.1 == e).map fun x => x.2

/-- MERGE: output row PROG (R212). -/
def State.elemMerge (s : State) (t : Nat) (f : Flight) : ElemRes :=
  let h := f.h
  let j := h.prog.toNat
  let lin := s.engRead t f.b .linear
  let e := wbits (h.word 3) 12 0
  let out := wbits (h.word 2) 18 0 + 4 * e * j
  let recs := mergeRecords lin (wbits (h.word 1) 18 0) (32 * wbits (h.word 1) 47 35) (wbits (h.word 1) 34 19)
    ((h.seqBase + j) % 2 ^ 20)
  let acc0 := (List.range e).map fun k => (if wbit (h.word 2) 35 then lin (out + 4 * k) 4 else 0, (0 : FFlags))
  let acc := recs.foldl (fun (acc : List (Nat × FFlags)) a =>
    let gate := lin (a + 4) 4
    (acc.zip (List.range e)).map fun (x : (Nat × FFlags) × Nat) =>
      let (r, fl) := ffmaOp fp32 false gate (lin (a + 32 + 4 * x.2) 4) x.1.1
      (r, x.1.2 ||| fl)) acc0
  let reads := wbits (h.word 1) 34 19 + (recs.map fun a => padLines (a + 32) (4 * e)).sum + (if wbit (h.word 2) 35 then padLines out (4 * e) else 0)
  match (s.engPass t reads).elemWindow t f .linear out (acc.flatMap fun x => leBytes 4 x.1) with
  | .error r => r
  | .ok s => .done s (j + 1) (acc.foldl (fun fl x => fl ||| x.2) 0)

/-! ### Starting and performing (R167, R171, R188) -/

/-- The engine number of a queue. -/
def Queue.num : Queue → Nat
  | .matrix => 0
  | .gather => 1
  | .copy k => 2 + k.toNat
  | .egress => 6

/-- Whether the engines of a tile run (R364, R367, R405). -/
def State.enginesRun (s : State) (t : Nat) : Bool :=
  let x := s.tile t
  (s.field (fieldOf t)).powered && x.powered && !x.retired && !x.faulted && !x.stopped && !x.halted && x.gate != .gated

/-- The next element of a macro, by its op; a macro whose elements are all performed waits for their writes. -/
def State.element (s : State) (t : Nat) (f : Flight) : ElemRes :=
  if f.h.prog = f.h.total then .done s f.h.total.toNat 0
  else match f.h.op.toNat with
  | 0 => s.elemTlw t f
  | 1 | 4 => s.elemTmm t f
  | 2 => s.elemTmmg t f
  | 3 => s.elemTrank t f
  | 5 => s.elemTdr t f
  | 6 => s.elemTz t f
  | 8 | 9 => s.elemGather t f
  | 10 | 11 => s.elemCopy t f
  | 12 => s.elemSetm t f
  | 28 => s.elemSteer t f
  | 29 => s.elemMerge t f
  | _ => .hold

/-- The macro after an attempt to perform an element (R171, R172). -/
def State.afterElement (s : State) (t : Nat) (f : Flight) (r : ElemRes) : State :=
  match r with
  | .done s n fl =>
    let h := { f.h with prog := BitVec.ofNat 32 n, flags := f.h.flags ||| fl.setWidth 5 }
    let s := s.setTile t ((s.tile t).dropFetches h.uid n)
    if h.prog = h.total ∧ !(s.tile t).ops.any (fun o => o.mac == some h.uid) then s.endFlight t f { h with st := .done }
    else s.putFlight t f h
  | .fault s code bad det back =>
    s.faultFlight t { f with h := { f.h with prog := match back with
                                             | some n => BitVec.ofNat 32 n
                                             | none => f.h.prog } } code bad det
  | .suspend s tag back => s.endFlight t f { f.h with st := .suspended, code := 1, xtag := tag, prog := BitVec.ofNat 32 back }
  | .wait s => s
  | .hold => s
  | .gone s => s
  | .hole pa => { s with stuck := some pa }

/-- Whether the publications and stream messages ahead of a fence have been performed (R188, R201). -/
def Tile.egressDrained (x : Tile) : Bool :=
  !(x.egress.any fun e => (e.pkt.typ == 0 && !e.pkt.serve) || e.pkt.typ == 6)

/-- A QFENCE at the head of every queue that it names, once the writes of what lay ahead of it are made: it performs them at its scope, and its
handle is DONE when that has ended (R188). -/
def State.completeFence (s : State) (t : Nat) (f : Flight) : State :=
  let x := s.tile t
  let heads := (List.range 7).all fun e => !f.h.qmask.getLsbD e || (x.queue e).head? == some (.fence f.h.uid)
  let owing := x.ops.any fun o => match o.mac with
    | some u => f.h.ahead.contains u || u == f.h.uid
    | none => false
  if heads && (!f.h.qmask.getLsbD 6 || x.egressDrained) && !owing then
    (s.pushOp t { id := s.uid, b := f.b, bind := f.who.bind, mac := some f.h.uid, what := .release,
                  rel := some ((Scope.ofCode f.h.variant).getD .sys) }).nextId
  else s

/-- The QFENCE of an identity has performed what lay ahead of it (R188). -/
def State.endFence (s : State) (t u : Nat) : State :=
  match s.flight t u with
  | some f => s.endFlight t f { f.h with st := .done, prog := 1 }
  | none => s

/-- Whether a message's bytes may be copied: no earlier access of its berth to the window is outstanding (R197). -/
def Tile.copyable (x : Tile) (m : Msg) : Bool :=
  !x.ops.any fun o => o.b == m.who.berth && o.mac.isNone && o.win && decide (o.id < m.uid)

/-- The first message of a run of messages at the head of the egress queue whose bytes are not copied. -/
def firstUncopied : List QItem → Option Msg
  | .msg m :: r => match m.bytes with
    | none => some m
    | some _ => firstUncopied r
  | _ => none

/-- A message's bytes copied into the egress buffer, and its scoreboard entry released (R197, R201). -/
def State.copyMessage (s : State) (t : Nat) (m : Msg) : State :=
  let bs := leBytes m.len (s.engRead t m.who.berth .linear m.src m.len)
  let x := s.tile t
  (s.engPass t (padLines m.src m.len)).setTile t { x with
    qEgress := x.qEgress.map fun q => match q with
      | .msg n => if n.uid = m.uid then .msg { n with bytes := some bs } else q
      | q => q
    score := x.score.filter fun e => e.mac || e.owner != m.uid }

/-- R167, R188, R201: the engine of a queue starts what stands at its head: a macro runs, a QFENCE that heads every queue it
names completes, a message is copied. -/
def execMacroStart (t : Nat) (q : Queue) (s : State) : Host.Outcome State Fault Refusal :=
  if !s.enginesRun t then .next s
  else match (s.tile t).queue (Queue.num q) with
    | .mac u :: _ =>
      match s.flight t u with
      | some f =>
        if f.h.st = .queued ∧ !(s.tile t).owes f.b f.h.entered then finish (s.putFlight t f { f.h with st := .running }) else .next s
      | none => .next s
    | .fence u :: _ =>
      match s.flight t u with
      | some f => finish (s.completeFence t f)
      | none => .next s
    | items =>
      match firstUncopied items with
      | some m => if (s.tile t).copyable m then finish (s.copyMessage t m) else .next s
      | none => .next s

/-- R171: the engine of a queue performs the next element of the macro that it runs. -/
def execMacroElement (t : Nat) (q : Queue) (s : State) : Host.Outcome State Fault Refusal :=
  if !s.enginesRun t then .next s
  else match (s.tile t).queue (Queue.num q) with
    | .mac u :: _ =>
      match s.flight t u with
      | some f => if f.h.st = .running then finish (s.afterElement t f (s.element t f)) else .next s
      | none => .next s
    | _ => .next s

/-- The STRM packet of a message (R268, R269): it goes to the receiver. -/
def State.mkStrm (s : State) (t : Nat) (m : Msg) (pl : List (BitVec 256)) : Packet :=
  let job := (s.tile t).job
  let dest := match (s.tile t).stream m.name with
    | some w => w.receiver.getD 0
    | none => 0
  { typ := 6, vc := 2, name := m.name, sseq := m.sseq, payload := pl, dest, dmod := s.dmodFor job m.name false }

/-- The packet injected last, moved by its stream's static route if it has one: to its receiver, or to the slipway's border router when
the receiver lies in another field (R268, R413). -/
def State.takeRoute (s : State) (p : Packet) : State :=
  let f := fieldOf p.orig.toNat
  match (s.field f).routes.find? fun z => z.job == p.job && z.name == p.name && z.sender == p.orig with
  | none => s
  | some z =>
    let s := s.charge f 11 p.job.toNat ((3 + p.payload.length) * z.hops.length)
    let q := if fieldOf z.receiver.toNat = f then { p with place := .tile z.receiver.toNat }
      else match z.hops.getLast? with
        | some (r, port) => { p with place := .router ((neighbour r port).getD r), inp := .l }
        | none => p
    { s with packets := s.packets.dropLast ++ [q] }

/-- A message injected: its copy enters the egress buffer (R201, R205, R211). -/
def State.injectMessage (s : State) (t : Nat) (m : Msg) (bs : List Byte) : State :=
  let x := s.tile t
  let pl := (match m.head with | some h => [h] | none => []) ++ flitsOf (m.len / 32) bs
  let s := s.setTile t { x with qEgress := x.qEgress.tail }
  let p := if m.strm then s.mkStrm t m pl else s.mkPub x.job m.name m.tag pl
  let (s, q) := s.inject t m.who p
  if m.strm then s.takeRoute q else s

/-- R201: the egress engine copies the message at the head of its queue, if it has not, and injects its packet. -/
def execEgressInject (t : Nat) (s : State) : Host.Outcome State Fault Refusal :=
  if !s.enginesRun t then .next s
  else match firstUncopied (s.tile t).qEgress, (s.tile t).qEgress with
    | some m, .msg n :: _ =>
      if m.uid = n.uid ∧ !(s.tile t).copyable m then .next s
      else
        let s := if m.uid = n.uid then s.copyMessage t m else s
        match (s.tile t).qEgress with
        | .msg k :: _ => finish (s.injectMessage t k (k.bytes.getD []))
        | _ => .next s
    | none, .msg k :: _ => finish (s.injectMessage t k (k.bytes.getD []))
    | _, _ => .next s

end Sys2Proof.Machine
end

