-- ==== Sys2Proof/Machine/Tile.lean ====
section
/-!
DEFINITION. Machine/Tile.lean: the steps of a tile's frame engine and berths that no slot makes: saving a berth
(R350, R352), entering the supervisor (R350), selecting and binding a token (R242 to R245, R406), fills (R239), SPAWNs (R208, R238)
and counter chains (R122).
-/
namespace Sys2Proof.Machine

/-- Whether a tile's frame engine works: powered, in no tile fault, in no precise stop, and not gated (R364, R367, R405). -/
def State.framesRun (s : State) (t : Nat) : Bool :=
  let x := s.tile t
  (s.field (fieldOf t)).powered && x.powered && !x.retired && !x.faulted && !x.stopped && !x.halted && x.gate != .gated

/-- Whether a tile's storage is alive: powered and not gated. -/
def State.tileLive (s : State) (t : Nat) : Bool :=
  let x := s.tile t
  (s.field (fieldOf t)).powered && x.powered && !x.retired && x.gate != .gated

/-! ### Saving a berth (R40, R352) -/

/-- R352: a trapped or pre-empted berth whose results have all arrived, and whose accesses are all performed, is written to its save area (R40,
R295); in a precise stop the frame store holds still (R405). -/
def execBerthSave (t : Nat) (b : Fin 5) (s : State) : Host.Outcome State Fault Refusal :=
  let y := s.berth t b
  let x := s.tile t
  if s.tileLive t && !x.faulted && !x.stopped && !x.halted && !x.ops.any (fun o => o.b == b && o.mac.isNone) && b != 4 && (y.status == .trapSaving || y.status == .preSaving)
      && y.landing.all fun e => e.wait == .here then
    finish (s.saveBerth t b)
  else .next s

/-- R350: the supervisor berth enters at SVEC for the oldest trapped berth. -/
def execSupervisorEntry (t : Nat) (s : State) : Host.Outcome State Fault Refusal :=
  if s.coreRuns t then finish (s.enterSupervisor t) else .next s

/-! ### Selecting and binding a token (R242 to R245) -/

/-- Over the soft budget of its field (R415, R432). -/
def Field.overSoft (f : Field) : Bool := f.soft || f.holdSoft
/-- Over the hard budget of its field (R415, R432, R433). -/
def Field.overHard (f : Field) : Bool := f.hard || f.holdHard || f.holdHeat

/-- Whether a ready token is deferred (R244). -/
def State.deferred (s : State) (t : Nat) (y : Frame) : Bool :=
  let f := s.field (fieldOf t)
  (y.ecls == 2 && (f.overSoft || f.overJobs.contains (s.tile t).job)) || (y.ecls == 1 && f.overHard)

/-- The place of a token in base order: context, iteration, frame index. -/
def baseKey (x : Tile) (f : Nat) : Nat := (x.frame f).tag.toNat * 256 + f

/-- The first of a list of frames in base order. -/
def firstInBase (x : Tile) (fs : List Nat) : Option Nat :=
  fs.foldl (fun a f => match a with
    | none => some f
    | some g => if baseKey x f < baseKey x g then some f else some g) none

/-- The candidates of a tile. -/
def State.candidates (s : State) (t : Nat) : List Nat :=
  (List.range 256).filter fun f => ((s.tile t).frame f).st == .ready && !s.deferred t ((s.tile t).frame f)

/-- The token that a selection takes (R242). -/
def State.selectToken (s : State) (t : Nat) : Option Nat :=
  let x := s.tile t
  let c := s.candidates t
  let promoted := c.filter fun f => (x.frame f).age == 32
  let urgent := c.filter fun f => (x.frame f).urg
  if !promoted.isEmpty then firstInBase x promoted
  else if !urgent.isEmpty then firstInBase x urgent
  else firstInBase x c

/-- The candidates that a selection overtakes, aged (R242). -/
def State.ageOvertaken (s : State) (t f : Nat) : State :=
  let x := s.tile t
  s.setTile t ((s.candidates t).foldl (fun y u =>
    if u ≠ f ∧ baseKey x u < baseKey x f then
      let q := y.frame u
      y.setFrame u { q with age := if q.age.toNat < 32 then q.age + 1 else q.age }
    else y) x)

/-- Whether breakpoint `k` matches a token (R406). -/
def Tile.breakHit (x : Tile) (y : Frame) (k : Nat) : Bool :=
  let a := x.bpA.getD k 0
  let b := x.bpB.getD k 0
  wbit a 63 && wbits a 15 0 == y.tidx.toNat && (!wbit a 28 || wbits a 27 16 == (tagCtx y.tag).toNat)
    && ((b.extractLsb' 0 20) ^^^ tagIter y.tag) &&& b.extractLsb' 20 20 == 0

/-- The type-4 record and the stop of a matching breakpoint (R403, R406). -/
def State.matchBreakpoint (s : State) (t : Nat) (b : Fin 5) (f : Nat) : State :=
  let x := s.tile t
  let y := x.frame f
  match (List.range 4).find? fun k => x.breakHit y k with
  | none => s
  | some k =>
    let s := s.traceRec t (obsRecord s t 4 y.last.toNat b.val (s.cycOf t) f y.tidx y.tag
      (BitVec.ofNat 64 (y.ip.toNat + k * 2 ^ 20)))
    if wbit (x.bpA.getD k 0) 62 then
      s.setTile t { s.tile t with stopped := true, bphit := true, bpn := BitVec.ofNat 2 k }
    else s

/-- The berth state that a bind leaves (R245). -/
def boundBerth (m : Option Tmpl) (y : Frame) (f uid : Nat) : Berth :=
  { tag := y.tag, frame := BitVec.ofNat 8 f, ip := BitVec.ofNat 64 (wbase + y.ip.toNat), bind := uid, status := .bound,
    fmt := match m with
      | some q => q.fmt.getD (Vector.replicate 16 0)
      | none => Vector.replicate 16 0,
    shape := match m with
      | some q => q.shape.getD (Vector.replicate 4 0)
      | none => Vector.replicate 4 0 }

/-- A token bound to a job berth (R245), entered in the tile's history (R411). -/
def State.bindToken (s : State) (t : Nat) (b : Fin 5) (f : Nat) : State :=
  let x := s.tile t
  let y := x.frame f
  let h : BindRec := { bind := s.uid, tidx := y.tidx, tag := y.tag, cyc := s.cycOf t, last := y.last, lcyc := y.lcyc,
                       origin := y.origin }
  let x := (x.setFrame f { y with st := .bound }).setBerth b { boundBerth (s.tmpl t y.tidx) y f s.uid with boundAt := some (s.cycOf t) }
  let s := { s.setTile t { x with history := (h :: x.history).take 256 } with uid := s.uid + 1 }
  s.matchBreakpoint t b f

/-- R242: the frame engine selects a ready token for the lowest-numbered free job berth. -/
def execTokenSelection (t : Nat) (s : State) : Host.Outcome State Fault Refusal :=
  if !(s.framesRun t && (s.tile t).gate == .idle) then .next s
  else match ([0, 1, 2, 3] : List (Fin 5)).find? fun b => (s.berth t b).status == .free, s.selectToken t with
    | some b, some f => finish ((s.ageOvertaken t f).bindToken t b f)
    | _, _ => .next s

/-! ### Fills (R239) -/

/-- R239: the frame engine applies the fill that reached it first. -/
def execFrameFill (t : Nat) (s : State) : Host.Outcome State Fault Refusal :=
  match (s.tile t).fills with
  | q :: qs =>
    if s.framesRun t then finish (((s.setTile t { s.tile t with fills := qs }).applyFill t q).restoreMoved t) else .next s
  | [] => .next s

/-! ### Unicast packets at a tile (R251, R265, R266, R273) -/

/-- Packet `k`, a whole Broak packet at the ingress of a tile that takes packets (R265). -/
def State.ingressPacket (s : State) (k : Nat) : Option (Nat × Packet) :=
  match s.packets[k]? with
  | some p => match p.place with
    | .tile t => if s.framesRun t && p.left == 0 && p.mt.isNone then some (t, p) else none
    | _ => none
  | none => none

/-- The state without packet `k`. -/
def State.dropPacket (s : State) (k : Nat) : State := { s with packets := s.packets.eraseIdx k }

/-- What identifies a packet at the place that applies it: OMOD, the origin LTN, and OSEQ (R266, R394). -/
def Packet.ident (p : Packet) : BitVec 19 × Nat × BitVec 32 :=
  let node := match p.node with
    | some x => 2 ^ 17 * (x.num.val + 1)
    | none => 0
  (p.omod, node + (p.rorig.getD p.orig).toNat, p.oseq)

/-- An ACK from tile `t` to a packet's origin, naming its OSEQ (R266); STATUS 1 reports a poisoned tail. -/
def State.ack (s : State) (t : Nat) (p : Packet) (status : BitVec 4) : State :=
  s.injectPlain t { typ := 12, vc := 0, dest := p.orig, dmod := p.omod, rorig := p.rorig, node := p.node, aux := p.oseq, status,
                     name := p.name }

/-- A discarded packet, counted (R265). -/
def State.discardAt (s : State) (t k : Nat) : State :=
  let x := s.tile t
  (s.setTile t { x with indisc := satInc x.indisc 1 }).dropPacket k

/-- Whether a packet is neither acknowledged nor counted as applied: STALE and ACK (R266). -/
def Packet.bare (p : Packet) : Bool := p.typ = 11 || p.typ = 12

/-- A unicast packet of a type taken by its destination: discarded when damaged, with an ACK of STATUS 1 for a poisoned tail,
acknowledged, and applied once (R265, R266, R371). -/
def State.takeUnicast (s : State) (k : Nat) (typ : BitVec 4) : Option (State × Option (Nat × Packet)) :=
  match s.ingressPacket k with
  | none => none
  | some (t, p) =>
    if p.typ ≠ typ then none
    else if p.corrupt || p.poison then
      let s := s.discardAt t k
      some (if p.poison && !p.bare then s.ack t p 1 else s, none)
    else
      let s := s.dropPacket k
      let s := if p.bare then s else s.ack t p 0
      let x := s.tile t
      if (!p.bare && x.seen.contains p.ident) || p.job != x.job then some (s, none)
      else some (if p.bare then s else s.setTile t { x with seen := p.ident :: x.seen }, some (t, p))

/-! ### SPAWN (R208, R238) and counter chains (R122) -/

/-- A frame created for a SPAWN or an emission, or a place in the tile's queue of waiting creations (R238). -/
def State.spawnAt (s : State) (t : Nat) (w : SpawnWait) : State :=
  let x := s.tile t
  if x.spawns.isEmpty && x.freeFrame.isSome then (s.createFrame t w.tidx w.tag w.token).1
  else s.setTile t { x with spawns := x.spawns ++ [w] }

/-- The slot and the token that an emission's SPAWN packet carries: SLOT and one payload flit (log entry 31). -/
def Packet.token (p : Packet) : Option (BitVec 4 × Word) :=
  match p.payload with
  | [w] => some (p.slot, w.setWidth 64)
  | _ => none

/-- R238: a SPAWN packet reaches its tile. -/
def execSpawnArrival (k : Nat) (s : State) : Host.Outcome State Fault Refusal :=
  match s.takeUnicast k 10 with
  | none => .next s
  | some (s, none) => finish s
  | some (s, some (t, p)) => finish (s.spawnAt t { tidx := p.aux.setWidth 16, tag := p.tag, token := p.token })

/-- The chain whose turn it is: the first running one, not paused, in cyclic order (R122). -/
def Tile.turn (x : Tile) : Option (BitVec 2) :=
  ([0, 1, 2, 3] : List (BitVec 2)).findSome? fun i =>
    let c := x.chainTurn + i
    let y := x.chains.get c.toFin
    if y.run && !y.paused then some c else none

/-- One emission of a chain (R122, R248). -/
def State.emit (s : State) (t : Nat) (c : BitVec 2) : State :=
  let s := s.setTile t { s.tile t with chainTurn := c + 1 }
  let x := s.tile t
  let y := x.chains.get c.toFin
  let token := some (y.islot, y.token)
  match (s.tmpl t y.ctmpl).bind fun m => m.tileFor y.ctag with
  | none => s
  | some dest =>
    if dest ≠ t then
      ((s.setTile t (x.stepChain c)).inject t noIssuer
        { typ := 10, vc := 0, tag := y.ctag, aux := y.ctmpl.setWidth 32, dest := BitVec.ofNat 17 dest, dmod := s.modid,
          slot := y.islot, payload := [y.token.setWidth 256] }).1
    else if x.spawns.isEmpty && x.freeFrame.isSome then
      ((s.setTile t (x.stepChain c)).createFrame t y.ctmpl y.ctag token).1
    else
      s.setTile t { x with chains := x.chains.set c.toNat { y with paused := true } c.isLt,
                           spawns := x.spawns ++ [{ tidx := y.ctmpl, tag := y.ctag, token, chain := some c }] }

/-- R122: counter chain `c` makes one emission when it is its turn. -/
def execChainEmission (t : Nat) (c : BitVec 2) (s : State) : Host.Outcome State Fault Refusal :=
  if s.framesRun t && (s.tile t).gate == .idle && (s.tile t).turn == some c then finish (s.emit t c) else .next s

end Sys2Proof.Machine
end

