-- ==== Sys2Proof/Machine/Slice.lean ====
section
/-!
DEFINITION. Machine/Slice.lean: the slices of a spur cache, each held by one tile of the spur (R307): reads, writes and write-backs that reach
them as memory transactions, and their own reads and write-backs at the homes (R280, R283, R377, R381).
-/
namespace Sys2Proof.Machine

/-- The answer of a tile's slice to a request. -/
def State.sliceReply (s : State) (u : Nat) (p : Packet) (m : MemTx) (pl : List (BitVec 256)) : State :=
  s.sendMem u p.orig p.job p.vc m pl

/-- The sectors that a read request names. -/
def MemTx.sectors (m : MemTx) : List Nat := (List.range m.n).map (m.key / 32 + ·)

/-- Dirty bytes of a sector leave a slice for their home; reads of the slice that are outstanding are overtaken. -/
def State.sliceBack (s : State) (u : Nat) (c : Sector) : State :=
  if c.dirty = 0 then s
  else
    let (s, tid) := s.takeTid u
    let y := s.spur (spurOf u)
    let s := s.setSpur (spurOf u) { y with
      wb := y.wb ++ [(u, { tid, sector := { c with have_ := c.dirty } })]
      reads := y.reads.map fun r => if r.waits.any fun w => w.2 == c.key then { r with stale := true } else r }
    s.sendMem u (s.homeCode (32 * c.key)) y.job 2 { mkind := 2, tid, key := 32 * c.key, n := 1, mask := c.dirty, un := c.un } [c.data]

/-- A sector on its way out of a spur cache. -/
def Spur.leaves (y : Spur) (sec : Nat) : Bool := y.wb.any fun w => w.2.sector.key == sec

/-- A sector kept by a slice as its most recently used; the least recently used one that may leave it goes when it is full (R307). -/
def State.slicePut (s : State) (u : Nat) (c : Sector) : State :=
  let y := s.spur (spurOf u)
  let y := { y with sectors := c :: y.sectors.filter fun z => z.key != c.key }
  let s := s.setSpur (spurOf u) y
  let mine := y.sectors.filter fun z => sliceTile (spurOf u) z.key == u
  if mine.length ≤ y.sliceRoom then s
  else match mine.reverse.find? fun z => z.dirty == 0 || !y.leaves z.key with
    | some z => (s.setSpur (spurOf u) { y with sectors := y.sectors.filter fun w => w.key != z.key }).sliceBack u z
    | none => s

/-- The whole sector that a slice can answer with, and its lock (R320). -/
def State.sliceHas (s : State) (u sec : Nat) : Option (BitVec 256 × BitVec 4) :=
  let y := s.spur (spurOf u)
  let (m, d) := y.holdsOf sec
  if m = BitVec.allOnes 32 then
    some (d, ((y.sectors.find? fun c => c.key == sec).bind fun c => c.lock).getD (s.lockAt sec))
  else none

/-- The answer to a read request with the sectors at hand. -/
def State.answerRead (s : State) (u : Nat) (p : Packet) (m : MemTx) (got : List (Nat × BitVec 256 × BitVec 4)) : State :=
  let of (sec : Nat) : BitVec 256 × BitVec 4 := ((got.find? fun g => g.1 == sec).map fun g => g.2).getD (0, 0)
  s.sliceReply u p { mkind := 1, tid := m.tid, key := m.key, n := m.n, locks := m.sectors.map fun x => (of x).2 }
    (m.sectors.map fun x => (of x).1)

/-- What a slice has not of a read request is asked for at its homes. -/
def State.sliceAsk (s : State) (u : Nat) (p : Packet) (m : MemTx) : State :=
  let lacking := m.sectors.filter fun sec => (s.sliceHas u sec).isNone
  let got := m.sectors.filterMap fun sec => (s.sliceHas u sec).map fun d => (sec, d)
  if lacking.isEmpty then s.answerRead u p m got
  else
    let (s, waits) := lacking.foldl (fun (a : State × List (BitVec 20 × Nat)) sec =>
      let (s, tid) := a.1.takeTid u
      (s.sendMem u (s.homeCode (32 * sec)) p.job p.vc { mkind := 0, tid, key := 32 * sec, n := 1, un := m.un } [], a.2 ++ [(tid, sec)])) (s, [])
    let y := s.spur (spurOf u)
    s.setSpur (spurOf u) { y with reads := y.reads ++ [{ tile := u, req := p, waits, got, stale := lacking.any y.leaves }] }

/-- A read request at a slice (R307). -/
def State.sliceRead (s : State) (u : Nat) (p : Packet) (m : MemTx) : State :=
  let s := s.charge (fieldOf u) 9 p.job.toNat m.n
  let s := m.sectors.foldl (fun (s : State) sec => match (s.spur (spurOf u)).sectors.find? fun c => c.key == sec with
    | some c =>
      let y := s.spur (spurOf u)
      s.setSpur (spurOf u) { y with sectors := c :: y.sectors.filter fun z => z.key != sec }
    | none => s) s
  s.sliceAsk u p m

/-- Bytes of a sector written in a slice, and acknowledged (R283). -/
def State.sliceWrite (s : State) (u : Nat) (p : Packet) (m : MemTx) : State :=
  let sec := m.key / 32
  let d := p.payload.headD 0
  let c := match (s.spur (spurOf u)).sectors.find? fun c => c.key == sec with
    | some c => { c with data := mergeBytes m.mask d c.data, have_ := c.have_ ||| m.mask, dirty := c.dirty ||| m.mask, un := m.un }
    | none => { key := sec, data := d &&& expandMask m.mask, have_ := m.mask, dirty := m.mask, lock := none, un := m.un }
  ((s.charge (fieldOf u) 9 p.job.toNat 1).slicePut u c).sliceReply u p { mkind := 3, tid := m.tid } []

/-- The sectors of a slice that a write-back request names. -/
def MemTx.flushes (m : MemTx) (u : Nat) (c : Sector) : Bool :=
  sliceTile (spurOf u) c.key == u && (match m.verb with
    | .flush true => !c.un || m.un
    | _ => decide (m.key / 32 ≤ c.key) && decide (c.key < m.key / 32 + m.n))

/-- Dirty bytes that a write-back request names sent home: they are acknowledged to the requester once none are left or on their way
(R280). -/
def State.sliceFlush (s : State) (u : Nat) (p : Packet) (m : MemTx) : State :=
  let y := s.spur (spurOf u)
  let go (c : Sector) : Bool := m.flushes u c && c.dirty != 0 && !y.leaves c.key
  let out := y.sectors.filter go
  let s := out.foldl (fun s c => s.sliceBack u c)
    (s.setSpur (spurOf u) { y with sectors := y.sectors.map fun c => if go c then { c with dirty := 0 } else c })
  let y := s.spur (spurOf u)
  let waits := (y.wb.filter fun w => w.1 == u && m.flushes u w.2.sector).map fun w => w.2.tid
  if waits.isEmpty then s.sliceReply u p { mkind := 3, tid := m.tid } []
  else s.setSpur (spurOf u) { y with acks := y.acks ++ [{ tile := u, req := p, waits }] }

/-- A request performed by the slice that it has reached. -/
def State.serveSlice (s : State) (u : Nat) (p : Packet) (m : MemTx) : State :=
  if m.mkind = 0 then s.sliceRead u p m
  else match m.verb with
    | .flush _ => s.sliceFlush u p m
    | _ => s.sliceWrite u p m

/-- The home's answer to one of a slice's reads; an overtaken read is made again (R283). -/
def State.sliceData (s : State) (u : Nat) (tid : BitVec 20) (d : BitVec 256) (lock : BitVec 4) : State :=
  let y := s.spur (spurOf u)
  match y.reads.find? fun r => r.tile == u && r.waits.any fun w => w.1 == tid with
  | none => s
  | some r =>
    let sec := ((r.waits.find? fun w => w.1 == tid).map fun w => w.2).getD 0
    let r' := { r with waits := r.waits.filter fun w => w.1 != tid, got := r.got ++ [(sec, d, lock)] }
    let rest := y.reads.erase r
    if !r'.waits.isEmpty then s.setSpur (spurOf u) { y with reads := rest ++ [r'] }
    else
      let s := s.setSpur (spurOf u) { y with reads := rest }
      match r.req.mt with
      | none => s
      | some m =>
        if r.stale then s.sliceAsk u r.req m
        else
          let whole (s : State) (g : Nat × BitVec 256 × BitVec 4) : BitVec 256 :=
            let (k, h) := (s.spur (spurOf u)).holdsOf g.1
            mergeBytes k h g.2.1
          let got := r'.got.map fun g => (g.1, whole s g, g.2.2)
          let s := got.foldl (fun s g =>
            let y := s.spur (spurOf u)
            let dirty : BitVec 32 := match y.sectors.find? fun c => c.key == g.1 with
              | some c => c.dirty
              | none => 0
            s.slicePut u { key := g.1, data := g.2.1, have_ := BitVec.allOnes 32, dirty, lock := some g.2.2, un := m.un }) s
          s.answerRead u r.req m got

/-- The home's acknowledgement of one of a slice's write-backs. -/
def State.sliceAcked (s : State) (u : Nat) (tid : BitVec 20) : State :=
  let y := s.spur (spurOf u)
  let hit (a : SliceAck) : Bool := a.tile == u && a.waits.contains tid
  let acks := y.acks.map fun a => if hit a then { a with waits := a.waits.filter fun w => w != tid } else a
  let ended := acks.filter fun a => a.waits.isEmpty
  let s := s.setSpur (spurOf u) { y with
    wb := y.wb.filter fun w => !(w.1 == u && w.2.tid == tid), acks := acks.filter fun a => !a.waits.isEmpty }
  ended.foldl (fun s a => match a.req.mt with
    | some m => s.sliceFlush a.tile a.req m
    | none => s) s

end Sys2Proof.Machine
end

