-- ==== Sys2Proof/Machine/MemSteps.lean ====
section
/-!
DEFINITION. Machine/MemSteps.lean: how a tile's outstanding accesses go on (R133, R138 to R148, R280, R284, R307, R317): their orders, their
requests, and the responses and acknowledgements that end them (R39, R281, R381).
-/
namespace Sys2Proof.Machine

/-! ### Values that arrive (R39) -/

/-- A landing entry with bytes of an access, from byte `off` of it on, put in their places. -/
def Landing.fill (l : Landing) (id off : Nat) (bs : List Byte) : Landing :=
  match l.wait with
  | .memory i base len _ =>
    if i = id then
      { l with data := (List.range len).foldl (fun d j =>
          if off ≤ base + j ∧ base + j < off + bs.length then
            (d &&& ~~~(0xFF#512 <<< (8 * j))) ||| ((bs.getD (base + j - off) 0).setWidth 512 <<< (8 * j))
          else d) l.data }
    else l
  | _ => l

/-- A landing entry whose access has ended: its bytes as a number of their width (R135). -/
def Landing.close (l : Landing) (id : Nat) : Landing :=
  match l.wait with
  | .memory i _ len signed => if i = id then { l with wait := .here, data := resultOf signed len (l.data.toNat % 2 ^ (8 * len)) } else l
  | _ => l

/-- The berth with bytes of an access arrived; `whole` when they are its last. -/
def Berth.arrived (y : Berth) (id off : Nat) (bs : List Byte) (whole : Bool) : Berth :=
  { y with landing := y.landing.map fun l => if whole then (l.fill id off bs).close id else l.fill id off bs }

/-! ### The end of an operation -/

/-- Whether two operations are the same piece of one access. -/
def MemOp.same (a b : MemOp) : Bool := a.id == b.id && a.off == b.off

/-- An outstanding operation changed. -/
def State.putOp (s : State) (t : Nat) (o : MemOp) : State :=
  let x := s.tile t
  s.setTile t { x with ops := x.ops.map fun a => if a.same o then o else a }

/-- An operation that is no longer outstanding; the bytes that it yields go to the landing entries of its binding. -/
def State.endOp (s : State) (t : Nat) (o : MemOp) (bs : List Byte) : State :=
  let x := s.tile t
  let ops := x.ops.filter fun a => !a.same o
  let y := x.berths[o.b]
  let y := if y.bind = o.bind then y.arrived o.id o.off bs (!ops.any fun a => a.id == o.id) else y
  s.setTile t ({ x with ops }.setBerth o.b y)

/-- Whether an operation is performed at its home, past the copies of its sector. -/
def MemOp.atHome (o : MemOp) : Bool :=
  match o.what with
  | .rmw _ _ _ | .mcst _ | .tagld | .tagst _ => !o.win
  | _ => false

/-- What follows an operation that has been performed: its acquire, the copies that an access at the home invalidates, a FENCE's records, an
ARRIVE's arrival, the end of a QFENCE (R138 to R140, R145, R146, R148, R188, R220). -/
def State.performed (s : State) (t : Nat) (o : MemOp) (bs : List Byte) : State :=
  let s := s.endOp t o bs
  let s := match o.acq with
    | some sc => s.acquire t o.b sc
    | none => s
  let s := if o.atHome then s.forget t (o.key / 32) else s
  match o.what with
  | .fence => if o.acq = some .wafer ∨ o.acq = some .sys then s.postDivergence t o.b else s
  | .arrive a => { s with arrivals := s.arrivals ++ [a] }
  | .release => match o.mac with
    | some u => s.endFence t u
    | none => s
  | _ => s

/-- A read that has come to its value: poison faults the tile (R364). -/
def State.readDone (s : State) (t : Nat) (o : MemOp) (bs : List Byte) : State :=
  if s.poisoned o.key o.n then (s.endOp t o bs).faultTile t 3 (BitVec.ofNat 64 o.key) 0 true else s.performed t o bs

/-- A fault that the translation of an access has come to since its bundle issued: the access is not performed, a result that it was to yield
is a free value, and the fault is pending on its berth (log entry 66). -/
def State.lateFault (s : State) (t : Nat) (o : MemOp) (code : Nat) (det : Word) : State :=
  let s := { s.endOp t o ((List.range 8).map fun i => Config.lateByte (s.fresh + i)) with fresh := s.fresh + 8 }
  let y := s.berth t o.b
  if o.what = .pref ∨ y.bind ≠ o.bind ∨ y.status = .free ∨ y.status = .ending then s
  else s.setBerth t o.b { y with faults := y.faults ++ [mkTrap code 0 o.ea det 0] }

/-! ### Starting -/

/-- Whether an operation writes its bytes. -/
def MemOp.writes (o : MemOp) : Bool :=
  match o.what with
  | .store _ | .rmw _ _ _ | .mcst _ | .tagst _ => true
  | _ => false

/-- Whether an operation reaches every replica of its page (R145, R148). -/
def MemOp.everywhere (o : MemOp) : Bool :=
  match o.what with
  | .mcst _ | .tagst _ => true
  | _ => false

/-- An operation that may start, with the translation of its bytes as the TLB holds it (R312, R317); or the state in which it waits for its
translation or has ended in a fault. -/
def State.located (s : State) (t : Nat) (o : MemOp) : Except State MemOp :=
  if o.win || o.mac.isSome || !(o.access || o.what == .pref) then .ok o
  else match s.translated t (eaVa o.ea) o.writes with
    | none => .error (s.setTile t ((s.tile t).addMiss ((s.tile t).missOf (eaVa o.ea) o.writes)))
    | some e =>
      let pa := e.pa (eaVa o.ea)
      if !s.leafReaches e.leaf pa || !s.replicasReach t o.everywhere e.leaf pa then
        .error (s.lateFault t o 0x05 (BitVec.ofNat 64 (bitsLevel e.bits + 24)))
      else if o.writes && !leafW e.leaf then .error (s.lateFault t o 0x03 1)
      else .ok { o with leaf := e.leaf, key := s.keyFor t e.leaf pa }

/-- The scope up to which an operation brings dirty bytes before its own access: that of its release, or of a FLUSH or INVAL. -/
def MemOp.scope (o : MemOp) : Scope :=
  match o.what with
  | .clean sc _ => sc
  | _ => o.rel.getD .berth

/-- The sectors whose dirty bytes it brings there (R139, R141, R282). -/
def MemOp.cleans (o : MemOp) (c : Sector) : Bool :=
  match o.what with
  | .clean _ _ => o.sectors.contains c.key
  | _ => c.scoped o.scope

/-- The virtual channel of an operation's own traffic (R377). -/
def MemOp.vc (o : MemOp) : BitVec 2 := if o.mac.isSome || o.what == .pref then 2 else 1

/-- A transaction of an operation: it is sent, and the operation waits for it. -/
def State.opSend (s : State) (t : Nat) (o : MemOp) (dest : BitVec 17) (m : BitVec 20 → MemTx) (pl : List (BitVec 256)) : State × MemOp :=
  let (s, tid) := s.takeTid t
  let o := { o with waits := o.waits ++ [tid] }
  ((s.putOp t o).sendMem t dest (s.tile t).job o.vc (m tid) pl, o)

/-- The keys at which a home operation is performed: one in each replica of a replicated page (R145, R148). -/
def MemOp.replicas (o : MemOp) : List Nat :=
  if o.everywhere && leafRpl o.leaf then [0, 1, 2, 3].map fun k => replicaPa o.key k else [o.key]

/-- An operation that is performed at its home sent there (R143 to R148, R308, R309). -/
def State.sendHomeOp (s : State) (t : Nat) (o : MemOp) : State :=
  let o := { o with phase := .sent, waits := [] }
  let so := leafKind o.leaf == 1
  let mside := leafMside o.leaf
  (o.replicas.foldl (fun (a : State × MemOp) key =>
    let send := a.1.opSend t a.2 (a.1.homeCode key)
    match o.what with
    | .rmw op b c => send (fun tid => { mkind := 4, tid, verb := .rmw op b c, key, n := o.n, so, mside }) []
    | .mcst bs =>
      let (mask, d) := sectorPut (key % 32) bs
      send (fun tid => { mkind := 2, tid, key, n := 1, mask, so, mside }) [d]
    | .tagst l => send (fun tid => { mkind := 4, tid, verb := .writeLock l, key, n := 1 }) []
    | _ => send (fun tid => { mkind := 4, tid, verb := .readLock, key, n := 1 }) []) (s.putOp t o, o)).1

/-- A load that finds its bytes in the tile, or asks for their sector; a sector that is on its way out of the tile may come without the bytes
that are on their way, and is then read again (R283, R307). -/
def State.loadOp (s : State) (t : Nat) (o : MemOp) : State :=
  let sec := o.key / 32
  let x := s.tile t
  let past := bypasses o.leaf
  let (m, d) := if past then ((0 : BitVec 32), (0 : BitVec 256)) else x.holdsOf sec
  let need := (sectorPut (o.key % 32) (List.replicate o.n 0)).1
  if need &&& ~~~m = 0 then
    ((s.charge (fieldOf t) 8 x.job.toNat 1).setTile t (x.touchTdc sec)).readDone t o (leBytes o.n (d.toNat / 2 ^ (8 * (o.key % 32))))
  else if responseRoom < x.awaiting + 1 then s.putOp t { o with phase := .waiting }
  else
    let o := { o with phase := .sent, waits := [], stale := !past && x.leaves sec }
    (s.opSend t o (if past then s.homeCode o.key else s.nextLevel t sec)
      (fun tid => { mkind := 0, tid, key := 32 * sec, n := 1, so := leafKind o.leaf == 1, mside := leafMside o.leaf,
                    un := leafKind o.leaf == 2 }) []).1

/-- A write-back of an operation's own sector asked of its slice; the operation goes on at once when no tile holds the slice. -/
def State.flushOwn (s : State) (t : Nat) (o : MemOp) : State × Bool :=
  let sec := o.key / 32
  let u := sliceTile (spurOf t) sec
  let o := { o with phase := .settleSpur, waits := [] }
  if s.sliceLive u then
    ((s.opSend t o (BitVec.ofNat 17 u) (fun tid => { mkind := 2, tid, verb := .flush false, key := 32 * sec, n := 1 }) []).1, false)
  else (s.putOp t o, true)

/-- The last step of an operation whose own sector is settled. -/
def State.settled (s : State) (t : Nat) (o : MemOp) : State :=
  if o.atHome then s.sendHomeOp t o
  else (if o.rel = some .sys then s.settleRemote (o.key / 32) else s).performed t o []

/-- An operation's own sector written back by the tile, then by its slice when the operation reaches beyond the spur (R139, R143, R280). -/
def State.settleOwn (s : State) (t : Nat) (o : MemOp) : State :=
  let p (c : Sector) : Bool := c.key == o.key / 32
  let s := (s.putOp t { o with phase := .settleTile }).cleanTdc t p
  if (s.tile t).unclean p then s
  else if o.atHome || o.scope.spurLevel then
    let (s, go) := s.flushOwn t o
    if go then s.settled t o else s
  else s.settled t o

/-- The access of an operation, its orders being satisfied. -/
def State.access (s : State) (t : Nat) (o : MemOp) : State :=
  let v : View := if o.swz then .swizzled else .linear
  match o.what with
  | .load =>
    if o.win then
      let (s, bs) := s.windowRead t (some o.b) v true o.key o.n
      s.performed t o bs
    else s.loadOp t o
  | .pref => if bypasses o.leaf then s.endOp t o [] else s.loadOp t o
  | .store bs =>
    if o.win then (s.windowWrite t o.b (.berth o.b) v true o.key bs).performed t o []
    else if bypasses o.leaf then
      let (mask, d) := sectorPut (o.key % 32) bs
      ((s.diverge t o.leaf o.key).opSend t { o with phase := .sent, waits := [] } (s.homeCode o.key)
        (fun tid => { mkind := 2, tid, key := o.key, n := 1, mask, so := leafKind o.leaf == 1, mside := leafMside o.leaf }) [d]).1
    else
      let s := s.storeCached t o.leaf o.key bs
      if o.scope.tdcLevel then s.settleOwn t o else s.performed t o []
  | .rmw op b c =>
    if o.win then
      let (s, old) := s.windowRmw t o.b op o.key o.n b c
      s.performed t o (leBytes o.n old)
    else s.settleOwn t o
  | .mcst _ | .tagld | .tagst _ => s.settleOwn t o
  | .clean sc drop => (if drop then s.dropScope t sc o.cleans else s).performed t o []
  | .fence | .release | .arrive _ => s.performed t o []

/-- The dirty bytes that an operation brings to its scope have reached the level past the spur cache: those of other modules' sectors go home
at `.sys` (R280). -/
def State.afterSpur (s : State) (t : Nat) (o : MemOp) : State := (if o.scope = .sys then s.flushRemote else s).access t o

/-- The slices of a spur that tiles hold. -/
def State.liveSlices (s : State) (t : Nat) : List Nat := (spurTiles (spurOf t)).filter s.sliceLive

/-- An operation asks every slice of its spur to write back what it brings to its scope. -/
def State.flushSlices (s : State) (t : Nat) (o : MemOp) : State :=
  let o := { o with phase := .cleanSpur, waits := [] }
  let us := s.liveSlices t
  if us.isEmpty then s.afterSpur t o
  else
    (us.foldl (fun (a : State × MemOp) u =>
      a.1.opSend t a.2 (BitVec.ofNat 17 u) (fun tid => match o.what with
        | .clean _ _ => { mkind := 2, tid, verb := .flush false, key := o.key, n := o.sectors.length }
        | _ => { mkind := 2, tid, verb := .flush true, un := decide (o.scope = .sys) }) []) (s.putOp t o, o)).1

/-- The dirty bytes of the tile data cache that an operation brings to its scope written back. -/
def State.cleanTile (s : State) (t : Nat) (o : MemOp) : State :=
  let s := (s.putOp t { o with phase := .cleanTile }).cleanTdc t o.cleans
  if (s.tile t).unclean o.cleans then s
  else if o.scope.spurLevel then s.flushSlices t o
  else s.access t o

/-- Whether a message of a berth that an operation must see copied is not: FENCE orders the reads of PUB slots (R140). -/
def Tile.uncopied (x : Tile) (o : MemOp) : Bool :=
  o.what == .fence && x.qEgress.any fun q => match q with
    | .msg m => m.bytes.isNone && m.who.berth == o.b && m.who.bind == o.bind && decide (m.uid < o.id)
    | _ => false

/-- An operation starts (R139, R140, R280): the copies that its acquire may not read are dropped, its release covers the berth's writes to the
window and brings its dirty bytes to the scope, and it makes its access. -/
def State.startOp (s : State) (t : Nat) (o : MemOp) : State :=
  match s.located t o with
  | .error s => s
  | .ok o =>
    let s := match o.acq with
      | some sc => s.dropScope t sc (Sector.scoped sc)
      | none => s
    let s := match o.rel, o.mac with
      | some sc, none => s.releaseViews t o.b sc
      | _, _ => s
    if o.scope.tdcLevel then s.cleanTile t o else s.access t o

/-- Outstanding operation `k` of a tile goes on, as far as it can. -/
def State.advanceOp (s : State) (t k : Nat) : State :=
  match (s.tile t).ops[k]? with
  | none => s
  | some o =>
    match o.phase with
    | .waiting => if (s.tile t).ready k o && !(s.tile t).uncopied o then s.startOp t o else s
    | .cleanTile => s.cleanTile t o
    | .cleanSpur => if o.waits.isEmpty then s.afterSpur t o else s
    | .settleTile => s.settleOwn t o
    | .settleSpur => if o.waits.isEmpty then s.settled t o else s
    | .sent => s

/-! ### Responses (R39, R281, R381) -/

/-- A read response that reaches a tile for one of its accesses. -/
def State.loadData (s : State) (t : Nat) (o : MemOp) (p : Packet) (m : MemTx) : State :=
  let sec := o.key / 32
  let d := p.payload.headD 0
  if o.stale then s.putOp t { o with phase := .waiting, waits := [], stale := false }
  else if bypasses o.leaf then s.readDone t o (leBytes o.n (d.toNat / 2 ^ (8 * (o.key % 32))))
  else
    let (k, h) := (s.tile t).holdsOf sec
    let s := (s.charge (fieldOf t) 8 p.job.toNat 1).tdcFill t sec d (m.locks.headD 0) (leafKind o.leaf == 2)
    if o.what = .pref then s.endOp t o []
    else s.readDone t o (leBytes o.n ((mergeBytes k h d).toNat / 2 ^ (8 * (o.key % 32))))

/-- A read response that reaches a tile for one of its engines; a read that has been overtaken is made again (R378). -/
def State.fetchData (s : State) (t : Nat) (f : Fetch) (p : Packet) (m : MemTx) : State :=
  let x := s.tile t
  let others := x.fetches.filter fun g => g.tid != f.tid
  if f.stale then
    let (s, tid) := s.takeTid t
    let x := s.tile t
    let again := (List.range f.n).any fun i => x.leaves (f.sec + i)
    let s := s.setTile t { x with fetches := others ++ [{ f with tid, stale := again }] }
    s.sendMem t (if m.so || m.mside then s.homeCode (32 * f.sec) else s.nextLevel t f.sec) p.job 2
      { mkind := 0, tid, key := 32 * f.sec, n := f.n, so := m.so, mside := m.mside, un := m.un } []
  else
    let s := s.setTile t { x with fetches := others ++ [{ f with data := some p.payload }] }
    if f.keep && !m.so && !m.mside then
      ((List.range f.n).zip (p.payload.zip m.locks)).foldl (fun s g => s.tdcFill t (f.sec + g.1) g.2.1 g.2.2 m.un) s
    else s

/-- The answer to a walk at the tile that asked for it (R312, R313): the translation enters the spur's cache and the TLB; without one, the
accesses that wait for the page meet the fault that its walk finds. -/
def State.walkAnswered (s : State) (t : Nat) (k : Miss) (e : Option TlbEnt) : State :=
  let x := s.tile t
  let s := s.setTile t { x with misses := x.misses.filter fun z => z.m != k.m }
  match e with
  | some e => if e.job = x.job then s.setTile t ((s.tile t).tlbPut e) else s
  | none =>
    (x.ops.filter fun o => o.phase == .waiting && !o.win && o.mac.isNone && (o.access || o.what == .pref)
        && eaVa o.ea / 65536 == k.m.vpage).foldl (fun s o =>
      match s.translate t (eaVa o.ea) with
      | .fault l c => s.lateFault t o 0x05 (BitVec.ofNat 64 (l + c * 8))
      | _ => s) s

/-- A response that reaches a tile: for a miss, an engine, an access, or the tile's slice. -/
def State.answered (s : State) (t : Nat) (p : Packet) (m : MemTx) : State :=
  let x := s.tile t
  match m.verb with
  | .found e => match x.misses.find? fun k => k.tid == some m.tid with
    | some k => s.walkAnswered t k e
    | none => s
  | _ =>
    match x.fetches.find? fun f => f.data.isNone && f.tid == m.tid with
    | some f => if m.mkind = 1 then s.fetchData t f p m else s
    | none => match x.ops.find? fun o => o.phase == .sent && o.waits.contains m.tid with
      | some o =>
        let o' := { o with waits := o.waits.filter fun w => w != m.tid }
        if m.mkind = 1 then s.loadData t o p m
        else if !o'.waits.isEmpty then s.putOp t o'
        else match o.what with
          | .rmw _ _ _ => s.readDone t o (leBytes o.n m.value.toNat)
          | .tagld => s.performed t o (leBytes 8 m.value.toNat)
          | _ => s.performed t o []
      | none => if m.mkind = 1 then s.sliceData t m.tid (p.payload.headD 0) (m.locks.headD 0) else s

/-- An acknowledgement that reaches a tile: of a write-back, of an access, or of its slice's write-back. -/
def State.acknowledged (s : State) (t : Nat) (m : MemTx) : State :=
  let x := s.tile t
  if x.wb.any fun w => w.tid == m.tid then s.setTile t { x with wb := x.wb.filter fun w => w.tid != m.tid }
  else match x.ops.find? fun o => o.waits.contains m.tid with
    | some o =>
      let o' := { o with waits := o.waits.filter fun w => w != m.tid }
      if o.phase = .sent ∧ o'.waits.isEmpty then s.performed t o' [] else s.putOp t o'
    | none => s.sliceAcked t m.tid

/-- Packet `k`, a whole memory transaction that has come to a tile in power: also one that is gated, whose slice still serves. -/
def State.memAtTile (s : State) (k : Nat) : Option (Nat × Packet × MemTx) :=
  match s.packets[k]? with
  | some p => match p.place, p.mt with
    | .tile t, some m => if (s.field (fieldOf t)).powered && s.sliceLive t && p.left == 0 then some (t, p, m) else none
    | _, _ => none
  | none => none

/-- MKIND of a response that brings data (R377). -/
def respCode : RespKind → BitVec 4
  | .read => 1
  | .atomic => 5
  | .walk => 7

/-- R39: packet `k` brings tile `t` the data of a load or a burst, of an atomic, or of a walk. -/
def execResultArrival (t : Nat) (b : RespKind) (k : Nat) (s : State) : Host.Outcome State Fault Refusal :=
  match s.memAtTile k with
  | some (n, p, m) => if n = t ∧ m.mkind = respCode b then finish ((s.dropPacket k).answered t p m) else .next s
  | none => .next s

/-- R281: packet `k`, an acknowledgement of a write, reaches tile `t`, which made it. -/
def execWriteAcknowledgement (t : Nat) (k : Nat) (s : State) : Host.Outcome State Fault Refusal :=
  match s.memAtTile k with
  | some (n, _, m) => if n = t ∧ m.mkind = 3 then finish ((s.dropPacket k).acknowledged t m) else .next s
  | none => .next s

end Sys2Proof.Machine
end

