-- ==== Sys2Proof/Machine/Wire.lean ====
section
/-!
DEFINITION. Machine/Wire.lean: packets as flits: Broak packets with the CHECK of their tail (R251) and memory transactions (R381); the sideband
of a mesh link with its FCRC (R384).
-/
namespace Sys2Proof.Machine

/-- One bit of CRC-32C, in the reflected form of polynomial 0x1EDC6F41. -/
def crcBit (c : BitVec 32) : BitVec 32 := if c.getLsbD 0 then (c >>> 1) ^^^ 0x82F63B78#32 else c >>> 1

/-- CRC-32C of a byte list from a running value. -/
def crcBytes : BitVec 32 → List Byte → BitVec 32
  | c, [] => c
  | c, b :: r =>
    let c := c ^^^ b.setWidth 32
    crcBytes (crcBit (crcBit (crcBit (crcBit (crcBit (crcBit (crcBit (crcBit c)))))))) r

/-- CRC-32C (Castagnoli) of a byte list. -/
def crc32c (bs : List Byte) : BitVec 32 := ~~~(crcBytes 0xFFFFFFFF#32 bs)

/-- The header flit (R251). -/
def Packet.headerFlit (p : Packet) : BitVec 256 :=
  0#72 ++ BitVec.ofBool p.rorig.isSome ++ p.rorig.getD 0 ++ p.dmod ++ p.omod ++ p.sseq ++ p.oseq
    ++ BitVec.ofNat 14 p.payload.length ++ p.dest ++ p.orig ++ p.gen ++ p.job ++ BitVec.ofBool p.serve ++ BitVec.ofBool p.dir
    ++ p.vc ++ p.typ

/-- The name flit (R251). -/
def Packet.nameFlit (p : Packet) : BitVec 256 :=
  0#54 ++ p.aux ++ 0#16 ++ p.status ++ p.slot ++ p.frame ++ p.mode ++ p.col1 ++ p.row1 ++ p.tag ++ p.name

/-- CHECK of a packet's flits before the tail. -/
def checkOf (fs : List (BitVec 256)) : BitVec 32 := crc32c (payloadBytes fs)

/-- Fields, each with its width, from bit 0 up. -/
def packBits : List (Nat × Nat) → Nat
  | [] => 0
  | (w, v) :: r => v % 2 ^ w + 2 ^ w * packBits r

/-- The number of an operation in a request (log entry 65). -/
def amoNum : AmoOp → Nat
  | .add => 0
  | .min => 1
  | .max => 2
  | .and => 3
  | .or => 4
  | .xor => 5
  | .swp => 6
  | .cas => 7

/-- The second flit of a memory transaction: the address and attributes of a request, or the status of a response (R381); the places of the
fields are the model's (log entry 65). -/
def MemTx.attr (m : MemTx) : BitVec 256 :=
  let flags := [(1, b2n m.so), (1, b2n m.mside), (1, b2n m.un)]
  let base := [(64, m.key), (12, m.n), (32, m.mask.toNat)] ++ flags
  BitVec.ofNat 256 (packBits (match m.verb with
    | .data =>
      (4, 0) :: (base ++ (if m.mkind = 5 then [(64, m.value.toNat)] else m.locks.map fun l => (4, l.toNat)))
    | .flush all => (4, 1) :: (base ++ [(1, b2n all)])
    | .rmw op b c => (4, 2) :: ([(64, m.key), (4, m.n)] ++ flags ++ [(3, amoNum op), (64, b.toNat), (64, c.toNat)])
    | .readLock => (4, 3) :: base
    | .writeLock l => (4, 4) :: (base ++ [(4, l.toNat)])
    | .walk x => [(4, 5), (12, x.job.toNat), (40, x.vpage), (1, b2n x.write)]
    | .found none => [(4, 6), (1, 0)]
    | .found (some e) => [(4, 6), (1, 1), (12, e.job.toNat), (40, e.page), (6, e.bits), (64, e.leaf.toNat)]))

/-- The header flit of a memory transaction (R381). -/
def Packet.memHeader (p : Packet) (m : MemTx) : BitVec 256 :=
  1#1 ++ 0#159 ++ m.tid ++ BitVec.ofNat 14 p.payload.length ++ p.dest ++ p.orig ++ 0#8 ++ p.job ++ 0#2 ++ p.vc ++ m.mkind

/-- The flits of a packet: of a Broak packet with its tail (R251), of a memory transaction without one (R381). -/
def Packet.toFlits (p : Packet) : List (BitVec 256) :=
  match p.mt with
  | some m => p.memHeader m :: m.attr :: p.payload
  | none =>
    let fs := p.headerFlit :: p.nameFlit :: p.payload
    let check := if p.corrupt then ~~~(checkOf fs) else checkOf fs
    fs ++ [0#223 ++ BitVec.ofBool p.poison ++ check]

/-- Flits of a packet: 3 and the payload, or 2 and the sectors of a memory transaction (R251, R377). -/
def Packet.flits (p : Packet) : Nat := (if p.mt.isSome then 2 else 3) + p.payload.length

/-- Flits of a packet that have arrived where it stands. -/
def Packet.here (p : Packet) : Nat := p.flits - p.left

/-- LEN of a header flit. -/
def flitLen (h : BitVec 256) : Nat := (h.extractLsb' 62 14).toNat

/-- The packet of a header, a name, payload flits and a tail (R251). -/
def ofFlits (h n : BitVec 256) (payload : List (BitVec 256)) (tail : BitVec 256) : Packet :=
  { rorig := if h.getLsbD 183 then some (h.extractLsb' 166 17) else none, dmod := h.extractLsb' 147 19,
    omod := h.extractLsb' 128 19, sseq := h.extractLsb' 108 20, oseq := h.extractLsb' 76 32, dest := h.extractLsb' 45 17,
    orig := h.extractLsb' 28 17, gen := h.extractLsb' 20 8, job := h.extractLsb' 8 12, serve := h.getLsbD 7,
    dir := h.getLsbD 6, vc := h.extractLsb' 4 2, typ := h.extractLsb' 0 4, aux := n.extractLsb' 170 32,
    status := n.extractLsb' 150 4, slot := n.extractLsb' 146 4, frame := n.extractLsb' 138 8, mode := n.extractLsb' 136 2,
    col1 := n.extractLsb' 116 20, row1 := n.extractLsb' 96 20, tag := n.extractLsb' 64 32, name := n.extractLsb' 0 64,
    payload, corrupt := tail.extractLsb' 0 32 != checkOf (h :: n :: payload), poison := tail.getLsbD 32 }

/-- The first whole packet of a run of flits, and the flits after it. -/
def takePacket (fs : List (BitVec 256)) : Option (Packet × List (BitVec 256)) :=
  match fs with
  | h :: n :: rest =>
    match rest.drop (flitLen h) with
    | tail :: after => some (ofFlits h n (rest.take (flitLen h)) tail, after)
    | [] => none
  | _ => none

/-! ### The words of a mesh link (R384) -/

/-- One bit of the CRC-16 of polynomial 0x1021. -/
def crc16Bit (c : BitVec 16) (b : Bool) : BitVec 16 := if c.getLsbD 15 != b then (c <<< 1) ^^^ 0x1021#16 else c <<< 1

/-- CRC-16 of a bit vector from a running value, its highest bit first (log entry 20). -/
def crc16 {w : Nat} (c : BitVec 16) (x : BitVec w) : BitVec 16 :=
  (List.range w).foldl (fun c i => crc16Bit c (x.getLsbD (w - 1 - i))) c

/-- FCRC of a flit: over the data, then FSEQ, then VC. -/
def fcrc (data : BitVec 256) (fseq : BitVec 7) (vc : BitVec 2) : BitVec 16 := crc16 (crc16 (crc16 0xFFFF#16 data) fseq) vc

/-- What a link carries in one cycle: 256 data bits and 34 sideband bits. -/
structure LinkWord where
  data : BitVec 256
  side : BitVec 34
  deriving DecidableEq, Repr

/-- AV. -/
def LinkWord.av (w : LinkWord) : Bool := w.side.getLsbD 33
/-- NAK. -/
def LinkWord.nak (w : LinkWord) : Bool := w.side.getLsbD 32
/-- ACKSEQ. -/
def LinkWord.ackseq (w : LinkWord) : BitVec 7 := w.side.extractLsb' 25 7
/-- FCRC. -/
def LinkWord.crc (w : LinkWord) : BitVec 16 := w.side.extractLsb' 9 16
/-- VC. -/
def LinkWord.vc (w : LinkWord) : BitVec 2 := w.side.extractLsb' 7 2
/-- FSEQ. -/
def LinkWord.fseq (w : LinkWord) : BitVec 7 := w.side.extractLsb' 0 7
/-- Whether FCRC matches. -/
def LinkWord.good (w : LinkWord) : Bool := w.crc == fcrc w.data w.fseq w.vc

/-- The sideband of a flit that is sent while the reverse direction acknowledges. -/
def sideband (av nak : Bool) (ackseq : BitVec 7) (f : LinkFlit) : BitVec 34 :=
  BitVec.ofBool av ++ BitVec.ofBool nak ++ ackseq ++ fcrc f.data f.fseq f.vc ++ f.vc ++ f.fseq

end Sys2Proof.Machine
end

