-- ==== Sys2Proof/Machine/Router.lean ====
section
/-!
DEFINITION. Machine/Router.lean: a router's work on the packets at its inputs: the generation check (R270, R271), the
name-match table (R255, R256, R258), the route (R252, R381, R388, R391, R421), room (R389, R438), and the arbitration of an output port,
which carries a granted packet flit by flit (R379, R382, R385).
-/
namespace Sys2Proof.Machine

/-! ### Live routers and links -/

/-- The link of a mesh port. -/
def Router.link (x : Router) (p : Port) : LinkEnd := x.links.getD p.num.val {}
/-- The router with a link end replaced. -/
def Router.setLink (x : Router) (p : Port) (l : LinkEnd) : Router := { x with links := x.links.setIfInBounds p.num.val l }

/-- Whether a port leads over a live link to a live router. -/
def State.linkLive (s : State) (r : Nat) (p : Port) : Bool :=
  match neighbour r p with
  | some n => !((s.router r).link p).dead && s.routerLive n
  | none => false

/-! ### Generations (R270, R271) -/

/-- How a packet's generation stands to a router's. -/
inductive GenCheck | same | stale | hold
  deriving DecidableEq, Repr

/-- The check of R271; a distance of 128, which is neither newer nor older, holds the packet. -/
def genCheck (router packet : BitVec 8) : GenCheck :=
  let d := (router - packet).toNat
  if d = 0 then .same else if d ≤ 127 then .stale else .hold

/-- The STALE packet that a router makes for a packet (R271). -/
def State.mkStale (s : State) (r : Nat) (p : Packet) : Packet :=
  { typ := 11, vc := 0, dest := p.orig, dmod := p.omod, rorig := p.rorig, aux := p.oseq, name := p.name, job := p.job,
    orig := BitVec.ofNat 17 r, omod := s.modid, gen := (s.router r).gen, node := p.node, place := .router r, inp := p.inp,
    routed := true }

/-- Packet `k` discarded: it goes once its last flit has arrived (R252, R271). -/
def State.voidPacket (s : State) (k : Nat) (p : Packet) : State :=
  if p.left = 0 then s.dropPacket k else { s with packets := s.packets.set k { p with void := true } }

/-- A packet counted as malformed by a router (R252, R273, R381). -/
def State.malformed (s : State) (r : Nat) : State :=
  let x := s.router r
  s.setRouter r { x with malf := satInc x.malf 1 }

/-- The tiles behind a router's local port: its own and the surplus tiles that it hosts (R420). -/
def hosted (r : Nat) : List Nat :=
  let y := indexOf r / 32
  [r, 2048 * fieldOf r + 1024 + 2 * y, 2048 * fieldOf r + 1025 + 2 * y].filter fun t => hostTile t == r

/-- Whether a tile of a job is in a GATE (R367). -/
def State.gating (s : State) (t : Nat) (job : BitVec 12) : Bool := (s.tile t).gate != .idle && (s.tile t).job == job

/-- Whether a tile in a GATE holds back packets of a type: an answer only once the unit is saved, since results that await it still
arrive in G2 (R40, R367; log entry 34). -/
def State.shuts (s : State) (t : Nat) (p : Packet) : Bool :=
  s.gating t p.job && (p.typ != 3 || (s.tile t).gate == .gated)

/-- Whether a publication matches an entry (R256). -/
def NmtEnt.takes (e : NmtEnt) (p : Packet) : Bool :=
  e.job == p.job && e.tens == nameTens p.name && e.summit == p.dest
    && decide (e.row0.toNat ≤ (nameRow p.name).toNat) && decide ((nameRow p.name).toNat ≤ e.row1.toNat)
    && decide (e.col0.toNat ≤ (nameCol p.name).toNat) && decide ((nameCol p.name).toNat ≤ e.col1.toNat)
    && tagMatches e.mode e.tag p.tag

/-- The entries in use of a router's table. -/
def Router.entries (x : Router) : List NmtEnt := x.nmt.filterMap id

/-- The subscriptions behind a port that a publication matches. -/
def Router.countAt (x : Router) (port : Port) (p : Packet) : Nat :=
  (x.entries.map fun e => if e.takes p then (e.cnt.get port.num).toNat else 0).sum

/-- Whether a publication that router `r` forwards reaches a tile in a GATE, by the name-match tables from there on. -/
def State.feedsUnit (s : State) (p : Packet) : Nat → Nat → Port → Bool
  | 0, _, _ => false
  | n + 1, r, inp =>
    (decide (0 < (s.router r).countAt .l p) && (hosted r).any fun t => s.gating t p.job)
      || ([.n, .e, .s, .w] : List Port).any fun q => q != inp && decide (0 < (s.router r).countAt q p)
        && match neighbour r q with
          | some m => s.feedsUnit p n m q.opposite
          | none => false

/-- Whether a router holds a packet for a gated unit (R367): the packet comes from outside the unit, is bound for it, and the router is of
the unit. ACK and STALE are never held; a packet of an older generation goes on to its check (R375). -/
def State.held (s : State) (r : Nat) (p : Packet) : Bool :=
  p.mt.isNone && !p.bare && (hosted r).any (fun t => s.shuts t p) && !s.gating p.orig.toNat p.job
    && genCheck (s.router r).gen p.gen == .same
    && (s.gating p.dest.toNat p.job || (p.typ = 0 && !p.serve && s.feedsUnit p 512 r p.inp))

/-- Packet `k`, a Broak packet of a type that a router is to take in, with its router: its first `n` flits have arrived, and the router
has not taken it. -/
def State.newAt (s : State) (k : Nat) (typ : BitVec 4) (n : Nat) : Option (Nat × Packet) :=
  match s.packets[k]? with
  | some p => match p.place with
    | .router r =>
      if p.typ = typ ∧ p.mt.isNone ∧ !p.routed ∧ !p.void ∧ n ≤ p.here ∧ s.routerLive r ∧ !s.held r p then some (r, p) else none
    | _ => none
  | none => none

/-- The state with packet `k` replaced. -/
def State.setPacket (s : State) (k : Nat) (p : Packet) : State := { s with packets := s.packets.set k p }

/-- How a packet stands after the checks of a router that takes it in. -/
inductive Taking
  | goes
  | waits
  | malformed
  | stale
  deriving DecidableEq, Repr

/-- A Broak packet's checks at a router that takes it in: its JOB at a local port (R273), a reserved TYPE (R252), and its generation
(R271). -/
def State.checkIn (s : State) (r : Nat) (p : Packet) : Taking :=
  if (p.inp == .l && p.node.isNone && p.job != (s.tile p.orig.toNat).job) || decide (13 ≤ p.typ.toNat) then .malformed
  else match genCheck (s.router r).gen p.gen with
    | .same => .goes
    | .hold => .waits
    | .stale => .stale

/-- The check of packet `k`: whether the router goes on with it, and the state once it has been discarded, if it is, with the STALE packet
of a stale one (R271). -/
def State.takeIn (s : State) (r k : Nat) (p : Packet) : State × Bool :=
  match s.checkIn r p with
  | .goes => (s, true)
  | .waits => (s, false)
  | .malformed => ((s.voidPacket k p).malformed r, false)
  | .stale => ({ s.voidPacket k p with packets := (s.voidPacket k p).packets ++ [s.mkStale r p] }, false)

/-! ### The route (R252, R381, R388, R391, R421) -/

/-- The Niesk port by which a packet for another module leaves: the one that its DEST names when it answers a packet of that module
(R394), else the selected one; in the place of a dead port the next live one (R391). -/
def State.nieskPort (s : State) (p : Packet) : Option Nat :=
  let k := match codeQuay p.dest.toNat with
    | some q => q
    | none => (s.npsel.get (p.dmod.setWidth 8).toFin).toNat
  ((List.range 32).map fun i => (k + i) % 32).find? fun q => !(s.quay q).npdead

/-- The router that a packet at router `r` heads for, and the port by which it leaves there; none while no Niesk port is live. The node
of a Niesk port stands at its first edge router (log entry 20). -/
def State.target (s : State) (r : Nat) (p : Packet) : Option (Nat × Port) :=
  let edge (q : Nat) := (s.edgeRouter q r).map fun e => (e, (quayRim q).2)
  if p.dmod ≠ s.modid then (s.nieskPort p).bind edge
  else match codeQuay p.dest.toNat with
    | some q => if p.node.isSome then some (quayRouter q 0, (quayRim q).2) else edge q
    | none => some (hostTile p.dest.toNat, .l)

/-- The border tile at which the dimension-order path from `r` leaves its field, as an index of the field. -/
def borderIndex (r dest : Nat) : Nat :=
  if meshX dest / 32 ≠ meshX r / 32 then 32 * yOf r + (if meshX r < meshX dest then 31 else 0)
  else 32 * (if meshY r < meshY dest then 31 else 0) + meshX dest % 32

/-- The indices from a marked router of a field up to the root of the sweep's tree, itself first. -/
def Field.ancestors (f : Field) : Nat → Nat → List Nat
  | 0, i => [i]
  | n + 1, i =>
    match f.tree.find i with
    | some p =>
      let up := match Port.ofNum p.toNat with
        | .n => i - 32
        | .s => i + 32
        | .w => i - 1
        | .e => i + 1
        | .l => i
      i :: f.ancestors n up
    | none => [i]

/-- The port from one index of a field to a neighbouring one. -/
def portBetween (i j : Nat) : Port :=
  if j + 32 = i then .n else if j = i + 32 then .s else if j + 1 = i then .w else .e

/-- The port that the detour table of the router of index `i` holds for index `d`; none when it is unreachable (R388). The routes
go up the sweep's tree to a common ancestor and down from there (log entry 32). -/
def Field.tablePort (f : Field) (i d : Nat) : Option Port :=
  let up := f.ancestors 1024 i
  let down := f.ancestors 1024 d
  if up.getLast? ≠ down.getLast? then none
  else if i = d then some .l
  else match down.findIdx? fun x => x == i with
    | some (k + 1) => some (portBetween i (down.getD k 0))
    | _ => match up with
      | _ :: u :: _ => some (portBetween i u)
      | _ => none

/-- A detour-table entry of router `r` (R388): PORT is 7 for an index that cannot be reached, and DET says that PORT differs from the
dimension-order port. -/
def State.detourEntry (s : State) (r i : Nat) : BitVec 4 :=
  let f := s.field (fieldOf r)
  if !f.swept then 0
  else match f.tablePort (indexOf r) (hostIndex (fieldOf r) i) with
    | some p => BitVec.ofNat 4 (p.num.val + 8 * b2n (p != dorPort r (2048 * fieldOf r + hostIndex (fieldOf r) i)))
    | none => 15

/-- The port by which a packet goes on from a router, and whether it is then in the detour half; none while it cannot. -/
def State.nextHop (s : State) (r : Nat) (p : Packet) : Option (Port × Bool) :=
  match s.target r p with
  | none => none
  | some (d, out) =>
    if d = r then some (out, false)
    else
      let port := dorPort r d
      if !p.detour && s.linkLive r port then some (port, false)
      else
        let i := if fieldOf d = fieldOf r then indexOf d else borderIndex r d
        let f := s.field (fieldOf r)
        if i = indexOf r then if s.linkLive r port then some (port, false) else none
        else if !f.swept then none
        else match f.tablePort (indexOf r) i with
          | some q => if s.linkLive r q then some (q, true) else none
          | none => none

/-! ### Reductions at a port (R396) -/

/-- Whether a reduction stands at a port of a router (R396). -/
def Reduction.standsAt (x : Reduction) (r : Nat) (port : Port) : Bool :=
  if x.kind = 0 then x.ltn.toNat == r && Port.ofNum x.dir.toNat == port
  else quayRouter x.port.toNat 0 == r && (quayRim x.port.toNat).2 == port

/-- Whether a name is an input of a reduction of a job (R396). -/
def Reduction.takes (x : Reduction) (job : BitVec 12) (n : Word) : Bool :=
  x.job == job && x.iten == nameTens n && decide ((nameRow n).toNat ≤ x.row1.toNat)
    && decide ((nameCol n).toNat ≤ x.col1.toNat)

/-- The reductions behind a router's port that take a publication. -/
def State.reductionsAt (s : State) (r : Nat) (port : Port) (p : Packet) : Nat :=
  (s.reductions.filter fun x => x.standsAt r port && x.takes p.job p.name).length

/-- Whether a publication uses the name-match table: neither a SERVE copy nor one bound for another module. -/
def State.isPub (s : State) (p : Packet) : Bool := p.mt.isNone && p.typ = 0 && !p.serve && p.dmod == s.modid

/-! ### Room and requests (R379, R389, R438) -/

/-- Bytes of a tile's ingress buffer in use (R265). -/
def State.ingressUsed (s : State) (t : Nat) : Nat :=
  (s.packets.map fun p => if p.place = .tile t ∧ p.mt.isNone then 32 * p.here else 0).sum

/-- The tiles behind a router's local port that take packets. -/
def State.localTiles (s : State) (r : Nat) : List Nat :=
  (hosted r).filter fun t => (s.tile t).powered && !(s.tile t).retired && s.enabled t

/-- Flits of a packet that every branch still to leave has sent. -/
def Packet.freed (p : Packet) : Nat :=
  match p.want with
  | [] => 0
  | w :: ws => ws.foldl (fun a x => min a (x.sent.getD 0)) (w.sent.getD 0)

/-- Flits of a VC in one half of an input buffer of a router, those that the link carries included. -/
def State.inputUsed (s : State) (r : Nat) (inp : Port) (vc : BitVec 2) (detour : Bool) : Nat :=
  (s.packets.map fun p =>
    if p.place = .router r ∧ p.inp = inp ∧ p.vc = vc ∧ p.detour = detour ∧ !p.void then p.here + p.due - p.freed else 0).sum

/-- Flits of a VC that wait at a Niesk port or at a quay; each holds as many of a VC as a mesh input (R390; log entry 20). -/
def State.waitingAt (s : State) (l : PLoc) (vc : BitVec 2) : Nat :=
  (s.packets.map fun p => if p.place = l ∧ p.vc = vc then p.here else 0).sum

/-- The flits that an input takes behind a port: 32, and at a border the 8 of the crossing buffer before it (R389). -/
def inputRoom (r : Nat) (port : Port) : Nat := if crossesField r port then 40 else 32

/-- Whether the bank of a tile has a place for one more EVENT packet than those that stand at it already (R333). -/
def State.bankRoom (s : State) (t : Nat) : Bool :=
  let q := (s.tile t).bank.q
  let here := (s.packets.filter fun p => p.place == .tile t && p.mt.isNone && p.typ == 9 && nameTens p.name != 0xFFFFFF).length
  decide (q.length + here < 4096) && decide ((q.filter fun e => !e.own).length + here < 3584)

/-- Whether the next hop of a packet has room for its next flit (R438): the input beyond a link, while fewer than 64 flits of the link are
unacknowledged (R385); the ingress buffers of the tiles behind the local port, a memory response always (R438), and for an EVENT packet's
first flit a place in the bank (R333); the Niesk port, the quay or the node at a border (R390, R396). -/
def State.room (s : State) (r : Nat) (port : Port) (p : Packet) (detour first : Bool) : Bool :=
  let node := !s.isPub p || s.reductionsAt r port p = 0 || !(s.packets.any fun q => q.place == .node (nodeId r port) && q.typ == 0)
  match neighbour r port with
  | some n =>
    s.linkLive r port && decide (((s.router r).link port).replay.length < 64)
      && decide (s.inputUsed n port.opposite p.vc (detour && !crossesField r port) < inputRoom r port) && (!first || node)
  | none =>
    if port != .l then
      match rimQuay r port with
      | some k =>
        (!first || node)
          && decide (s.waitingAt (if p.dmod ≠ s.modid ∨ s.isPub p then .niesk k else .quay k) p.vc < 32)
      | none => false
    else if p.mt.isSome then true
    else if s.isPub p then (s.localTiles r).all fun t => decide (s.ingressUsed t + 32 ≤ 32768)
    else decide (s.ingressUsed p.dest.toNat + 32 ≤ 32768)
      && (!first || p.typ != 9 || nameTens p.name == 0xFFFFFF || s.bankRoom p.dest.toNat)

/-- Whether packet `k` at a router is at the head of its input buffer. -/
def State.headOf (s : State) (r k : Nat) (p : Packet) : Bool :=
  !((s.packets.take k).any fun q =>
    decide (q.place = .router r) && q.inp == p.inp && q.vc == p.vc && q.detour == p.detour && !q.void)

/-- The packets that request a port in this cycle, with their places in the list and their requests. -/
def State.requests (s : State) (r : Nat) (port : Port) : List (Nat × Packet × Want) :=
  s.packets.zipIdx.filterMap fun (p, k) =>
    if p.place = .router r ∧ p.routed ∧ !p.void ∧ 0 < p.here then
      match p.want.find? fun w => w.port == port && w.sent.isNone with
      | some w => if s.headOf r k p && s.room r port p w.det true then some (k, p, w) else none
      | none => none
    else none

/-- The packet that a port carries, with its place in the list, its request and the flits already carried. -/
def State.granted (s : State) (r : Nat) (port : Port) : Option (Nat × Packet × Want × Nat) :=
  s.packets.zipIdx.findSome? fun (p, k) =>
    if p.place = .router r then
      match p.want.find? fun w => w.port == port && w.sent.isSome with
      | some w => some (k, p, w, w.sent.getD 0)
      | none => none
    else none

/-! ### Taking in packets that use no name-match entry -/

/-- Whether a packet is routed by DEST alone: neither a climbing PUB, SUB or UNSUB nor an answer on its way back. -/
def Packet.unicast (p : Packet) : Bool :=
  p.mt.isSome || match p.typ.toNat with
  | 0 => p.serve
  | 1 | 2 => false
  | 3 => p.path.isEmpty
  | _ => true

/-- Whether a packet climbs and is applied at its summit without a table (R252). -/
def Packet.climbs (p : Packet) : Bool := p.mt.isNone && (p.typ = 4 || (p.typ = 7 && !p.dir) || p.typ = 8)

/-- The checks of a memory transaction at a router (R381): MKIND 8 to 15, and a response to a retired tile behind this router. -/
def State.checkMem (s : State) (r : Nat) (p : Packet) (m : MemTx) : Taking :=
  let response := m.mkind = 1 || m.mkind = 3 || m.mkind = 5 || m.mkind = 7
  if m.mkind.getLsbD 3 || (response && (codeQuay p.dest.toNat).isNone && hostTile p.dest.toNat = r && (s.tile p.dest.toNat).retired) then
    .malformed
  else .goes

/-- How one packet of a router that is not yet routed stands: a packet routed by DEST is checked as it is taken in; what uses the
name-match table is taken in by its own step. -/
def State.routeCheck (s : State) (r : Nat) (p : Packet) : Taking :=
  match p.mt with
  | some m => if p.routed then .goes else s.checkMem r p m
  | none =>
    if p.routed then .goes
    else if p.unicast || decide (13 ≤ p.typ.toNat) || (p.typ = 0 && p.dmod != s.modid) then s.checkIn r p
    else .waits

/-- One packet of a router routed: a packet without a request gets one; at its summit's router a whole REQ, GRANT or OPEN is at its
summit. The packets that stand in its place are the answer. -/
def State.route (s : State) (r : Nat) (p : Packet) : State × List Packet :=
  let gone := if p.left = 0 then [] else [{ p with void := true }]
  if p.place ≠ .router r ∨ p.void ∨ p.here = 0 ∨ (!p.routed ∧ s.held r p) then (s, [p])
  else match s.routeCheck r p with
    | .waits => (s, [p])
    | .malformed => (s.malformed r, gone)
    | .stale => (s, gone ++ [s.mkStale r p])
    | .goes =>
      if !p.want.isEmpty then (s, [{ p with routed := true }])
      else match s.nextHop r p with
        | none => (s, [{ p with routed := true }])
        | some (port, det) =>
          if port = .l ∧ p.climbs then (s, [if p.left = 0 then { p with routed := true, place := .summit r } else { p with routed := true }])
          else (s, [{ p with routed := true, want := [{ port, det }] }])

/-- Every packet at a router routed. -/
def State.routeAll (s : State) (r : Nat) : State :=
  s.packets.foldl (fun s p =>
    let (s, ps) := s.route r p
    { s with packets := s.packets ++ ps }) { s with packets := [] }

/-! ### The grant (R379, R382) -/

/-- A job's JTCTL.PRIO. -/
def State.prio (s : State) (job : BitVec 12) : Nat := (s.job job.toNat).prio.toNat

/-- The round robin's choice among the requests of a VC: those of the highest priority, the input after the last one granted
first. -/
def State.pick (s : State) (last : Nat) (rs : List (Nat × Packet × Want)) : Option (Nat × Packet × Want) :=
  let top := rs.foldl (fun a x => max a (s.prio x.2.1.job)) 0
  let best := rs.filter fun x => s.prio x.2.1.job == top
  firstSome (fun i => best.find? fun x => x.2.1.inp.num.val == (last + 1 + i) % 5) [0, 1, 2, 3, 4]

/-- The weight of a VC in a field. -/
def Field.weight (f : Field) (vc : Nat) : BitVec 4 := if vc = 1 then f.w1 else if vc = 2 then f.w2 else f.w3

/-- The VC after another in the cyclic order 1, 2, 3. -/
def nextVc (vc : Nat) : Nat := if vc = 3 then 1 else vc + 1

/-- The weighted round robin (R379): the packet granted and the port's pointer and credits after it. -/
def State.wrr (s : State) (r : Nat) (o : OutPort) (rs : List (Nat × Packet × Want)) :
    Option ((Nat × Packet × Want) × OutPort) :=
  let ofVc (v : Nat) := rs.filter fun x => x.2.1.vc.toNat == v
  let ptr := o.ptr.toNat
  let stay := o.credit.getD (ptr - 1) 0 != 0 && !(ofVc ptr).isEmpty
  let ptr' := if stay then some ptr
    else [nextVc ptr, nextVc (nextVc ptr), ptr].find? fun v => !(ofVc v).isEmpty
  match ptr' with
  | none => none
  | some v =>
    let c := if stay then o.credit.getD (v - 1) 0 else (s.field (fieldOf r)).weight v
    (s.pick (o.rr.getD v 0).toNat (ofVc v)).map fun x =>
      (x, { o with ptr := BitVec.ofNat 2 v, credit := o.credit.setIfInBounds (v - 1) (c - 1),
                   rr := o.rr.setIfInBounds v (BitVec.ofNat 3 x.2.1.inp.num.val) })

/-- What a free port grants in a cycle: the packet promoted earliest, else one of VC0, else by weighted round robin. -/
def State.grantOf (s : State) (r : Nat) (o : OutPort) (rs : List (Nat × Packet × Want)) :
    Option ((Nat × Packet × Want) × OutPort) :=
  let promoted := rs.foldl (fun (a : Option (Nat × Packet × Want)) x =>
    match x.2.2.prom, a with
    | none, a => a
    | some _, none => some x
    | some i, some y => match y.2.2.prom with
      | some j => if i < j then some x else some y
      | none => some x) none
  let urgent := rs.filter fun x => x.2.1.vc == 0
  match promoted with
  | some x => some (x, o)
  | none =>
    match s.pick (o.rr.getD 0 0).toNat urgent with
    | some x => some (x, { o with rr := o.rr.setIfInBounds 0 (BitVec.ofNat 3 x.2.1.inp.num.val) })
    | none => s.wrr r o rs

/-- The requests of a cycle in input order N, E, S, W, L. -/
def byInput (rs : List (Nat × Packet × Want)) : List (Nat × Packet × Want) :=
  (List.range 5).flatMap fun i => rs.filter fun x => x.2.1.inp.num.val == i

/-- The packet with its request at a port replaced. -/
def Packet.setWant (p : Packet) (w : Want) : Packet :=
  { p with want := p.want.map fun x => if x.port = w.port then w else x }

/-- Requests whose age has reached the ageing limit promoted, in input order (R379). -/
def State.promote (s : State) (r : Nat) (port : Port) : State :=
  (byInput (s.requests r port)).foldl (fun s (k, p, w) =>
    if (s.field (fieldOf r)).arba.toNat ≤ w.age ∧ w.prom.isNone then
      let x := s.router r
      let o := x.ports.get port.num
      let s := s.setPacket k (p.setWant { w with prom := some o.stamp })
      s.setRouter r { x with ports := x.ports.set port.num { o with stamp := o.stamp + 1 } }
    else s) s

/-- The ages of the requests that this cycle does not grant. -/
def State.ageRequests (s : State) (r : Nat) (port : Port) : State :=
  (s.requests r port).foldl (fun s (k, p, w) => s.setPacket k (p.setWant { w with age := w.age + 1 })) s

/-! ### Moving a granted packet (R379, R385, R438) -/

/-- The copies that leave a router by a port, each at its next place with its flits to come: a neighbour's input, the tiles or a reduction
node behind the local port, a reduction node or the Niesk port or quay behind a border. Nothing but the node's copy goes back by the mesh
port of arrival (R256, R396). -/
def State.copies (s : State) (r : Nat) (port : Port) (p : Packet) (det : Bool) : List Packet :=
  let q := { p with want := [], routed := false, detour := false, left := p.flits, due := 0, fed := some (r, port), poison := false,
                    corrupt := false }
  let pub := s.isPub p
  let n := if pub then s.reductionsAt r port p else 0
  let onward := (n = 0 || decide (n < (s.router r).countAt port p)) && !(0 < n && port == p.inp && (neighbour r port).isSome)
  (if n = 0 then [] else [{ q with place := .node (nodeId r port) }])
  ++ if !onward then []
     else match neighbour r port with
      | some n => [{ q with place := .router n, inp := port.opposite, detour := det && !crossesField r port }]
      | none =>
        if port = .l then
          if pub then (s.localTiles r).map fun t => { q with place := .tile t }
          else match p.node with
            | some x => [{ q with place := .node (nodeId r x) }]
            | none => [{ q with place := .tile p.dest.toNat }]
        else match rimQuay r port with
          | some k =>
            if p.dmod ≠ s.modid then [{ q with place := .niesk k }]
            else if pub then [{ q with place := .niesk k, dmod := (s.quay k).peer }]
            else if p.node.isSome then [{ q with place := .node (nodeId r port) }]
            else [{ q with place := .quay k }]
          | none => []

/-- A copy that its output port has sent one more flit of packet `p`: over a link the flit is due, elsewhere it has arrived; the last one
brings the tail's POISON and CHECK. -/
def Packet.feed (q p : Packet) (r : Nat) (port : Port) (last : Bool) : Packet :=
  if q.fed ≠ some (r, port) then q
  else
    let q := match q.place with
      | .router _ => { q with due := q.due + 1 }
      | _ => { q with left := q.left - 1 }
    if last then { q with fed := none, poison := q.poison || p.poison, corrupt := q.corrupt || p.corrupt } else q

/-- Flit `i` of packet `k` carried by a port: it enters the link's replay buffer (R385), and with the last one the packet leaves once no
port is left (R256). -/
def State.sendFlit (s : State) (r k : Nat) (port : Port) (p : Packet) (i : Nat) : State :=
  let last := i + 1 = p.flits
  let s := { s with packets := s.packets.map fun (q : Packet) => q.feed p r port last }
  let rest := if last then p.want.filter fun w => w.port != port
    else p.want.map fun w => if w.port = port then { w with sent := some (i + 1) } else w
  let s := if rest.isEmpty then s.dropPacket k else s.setPacket k { p with want := rest }
  let s := s.charge (fieldOf r) 10 p.job.toNat 1
  if (neighbour r port).isSome then
    let x := s.router r
    let l := x.link port
    let f : LinkFlit := { data := p.toFlits.getD i 0, vc := p.vc, fseq := l.fseq }
    s.setRouter r (x.setLink port { l with replay := l.replay ++ [f], fseq := l.fseq + 1 })
  else s

/-- Packet `k` granted a port: its copies stand at the next place, and its head flit is carried. -/
def State.grant (s : State) (r k : Nat) (port : Port) (p : Packet) (det : Bool) : State :=
  ({ s with packets := s.packets ++ s.copies r port p det }).sendFlit r k port p 0

/-- A packet that leaves its dimension-order route, counted by the field's DETOUR (R383, R388). -/
def State.countDetour (s : State) (r : Nat) (p : Packet) (det : Bool) : State :=
  let f := s.field (fieldOf r)
  if det && !p.detour then s.setField (fieldOf r) { f with detour := satInc f.detour 1 } else s

/-- One cycle of output port `port` of router `r` (R379): the packet that it carries sends its next flit, and pauses while that has not
arrived or the next hop has no room (R438); a free port grants a packet and carries its head flit. -/
def State.portCycle (s : State) (r : Nat) (port : Port) : State :=
  let s := (s.routeAll r).promote r port
  match s.granted r port with
  | some (k, p, w, i) =>
    let s := s.ageRequests r port
    if i < p.here ∧ s.room r port p w.det false then s.sendFlit r k port p i else s
  | none =>
    let x := s.router r
    match s.grantOf r (x.ports.get port.num) (s.requests r port) with
    | none => s
    | some ((k, p, w), o) =>
      let s := s.ageRequests r port
      let s := s.setRouter r { x with ports := x.ports.set port.num o }
      (s.countDetour r p w.det).grant r k port p w.det

end Sys2Proof.Machine
end

