-- ==== Sys2Proof/Machine/Summit.lean ====
section
/-!
DEFINITION. Machine/Summit.lean: building and removing trees (R255, R258), publications at routers and summits (R256, R259,
R261, R262), what a summit does with SUB, UNSUB and REQ (R263, R395), fall-through at the quays (R264), and the pairing of streams
(R268).
-/
namespace Sys2Proof.Machine

/-! ### Name-match entries (R255, R258) -/

/-- The entry that a SUB's pattern would take, with no count. -/
def Packet.entry (p : Packet) (isSummit : Bool) : NmtEnt :=
  { isSummit, mode := p.mode, job := p.job, tens := nameTens p.name, summit := p.dest, row0 := nameRow p.name,
    row1 := p.row1, col0 := nameCol p.name, col1 := p.col1, tag := p.tag, cnt := Vector.replicate 5 0 }

/-- Whether two entries have equal patterns (R255). -/
def NmtEnt.same (a b : NmtEnt) : Bool :=
  a.job == b.job && a.tens == b.tens && a.row0 == b.row0 && a.row1 == b.row1 && a.col0 == b.col0 && a.col1 == b.col1
    && a.mode == b.mode && a.tag == b.tag && a.summit == b.summit

/-- The place of the entry with an equal pattern. -/
def Router.placeOf (x : Router) (e : NmtEnt) : Option Nat := x.nmt.findIdx? fun y => y.any e.same

/-- The lowest free place of the table; none when all 256 are in use (log entry 31). -/
def Router.freePlace (x : Router) : Option Nat :=
  match x.nmt.findIdx? fun y => y.isNone with
  | some i => some i
  | none => if x.nmt.length < 256 then some x.nmt.length else none

/-- The table with a place set. -/
def Router.setEntry (x : Router) (i : Nat) (e : Option NmtEnt) : Router :=
  { x with nmt := if i < x.nmt.length then x.nmt.set i e else x.nmt ++ [e] }

/-- A pattern's subscription counted at a port: none when the table or the count is full (R258). -/
def Router.install (x : Router) (e : NmtEnt) (port : Port) : Option Router :=
  match x.placeOf e with
  | some i =>
    let y := (x.nmt.getD i none).getD e
    let c := y.cnt.get port.num
    if c = 63 then none
    else some (x.setEntry i (some { y with isSummit := y.isSummit || e.isSummit, cnt := y.cnt.set port.num (c + 1) }))
  | none => x.freePlace.map fun i => x.setEntry i (some { e with cnt := e.cnt.set port.num 1 })

/-- One subscription of a pattern taken away at a port, its entry freed when no count is left; none when no equal entry stands. -/
def Router.uninstall (x : Router) (e : NmtEnt) (port : Port) : Option Router :=
  match x.placeOf e with
  | some i =>
    let y := (x.nmt.getD i none).getD e
    let c := y.cnt.get port.num
    let y := { y with cnt := y.cnt.set port.num (if c = 0 then 0 else c - 1) }
    some (x.setEntry i (if y.cnt.toList.all (· == 0) then none else some y))
  | none => none

/-- An entry as its four words (R255). -/
def NmtEnt.words (e : NmtEnt) : List Word :=
  [1#1 ++ BitVec.ofBool e.isSummit ++ e.mode ++ e.job ++ e.tens ++ e.summit ++ 0#7, 0#24 ++ e.row1 ++ e.row0, 0#24 ++ e.col1 ++ e.col0,
   0#2 ++ e.cnt[4] ++ e.cnt[3] ++ e.cnt[2] ++ e.cnt[1] ++ e.cnt[0] ++ e.tag]

/-- The 256-bit entry at a place of the table, lowest word first; a free one is 0. -/
def Router.entryWords (x : Router) (i : Nat) : List Word :=
  match x.nmt.getD i none with
  | some e => e.words
  | none => [0, 0, 0, 0]

/-! ### Answers (R258) -/

/-- An ANS to a SUB or UNSUB, with the OSEQ and the pattern that it echoes (log entry 31). -/
def Packet.answer (p : Packet) (status : BitVec 4) : Packet :=
  { typ := 3, vc := 0, status, dest := p.orig, dmod := p.omod, rorig := p.rorig, node := p.node, aux := p.oseq, name := p.name,
    row1 := p.row1, col1 := p.col1, mode := p.mode, tag := p.tag }

/-- The TBLFULL answer of router `r`, injected by the router's tile, whose egress buffer keeps it until its ACK (R266; log entry 31); it goes
back by the way that the packet came (R258). -/
def State.sendFull (s : State) (r : Nat) (p : Packet) : State :=
  let x := s.tile r
  let a := { p.answer 1 with job := p.job, gen := (s.router r).gen, orig := BitVec.ofNat 17 r, omod := s.modid, oseq := x.oseq,
                             place := .router r, inp := p.inp, routed := true, want := [{ port := p.inp }], path := p.path,
                             row1 := p.row1, col1 := p.col1, aux := p.oseq, full := some p.dest }
  let st : Staged := { pkt := a, resends := 0, who := noIssuer, inc := (s.job p.job.toNat).inc }
  { s.setTile r { x with oseq := x.oseq + 1, egress := x.egress ++ [st] } with packets := s.packets ++ [a] }

/-- What a router counts a SUB or UNSUB by: its origin, its number and its summit. -/
def Packet.tracked (p : Packet) : (BitVec 19 × Nat × BitVec 32) × BitVec 17 := (p.ident, p.dest)

/-- What the SUB that an answer answers is counted by. -/
def Packet.answered (a : Packet) : (BitVec 19 × Nat × BitVec 32) × BitVec 17 :=
  ({ a with omod := a.dmod, orig := a.dest, oseq := a.aux : Packet }.ident, a.full.getD a.orig)

/-- R258: a SUB packet at a router on its route. At its summit's router it waits to be applied; a resent one that the router has counted
already goes on (R266). -/
def execRouterSub (k : Nat) (s : State) : Host.Outcome State Fault Refusal :=
  match s.newAt k 1 3 with
  | none => .next s
  | some (r, p) =>
    match s.takeIn r k p with
    | (s, false) => finish s
    | (s, true) =>
      let x := s.router r
      let on := { p with routed := true, path := (r, p.inp) :: p.path }
      if p.dmod ≠ s.modid then finish (s.setPacket k { p with routed := true })
      else if hostTile p.dest.toNat = r then finish (s.setPacket k { p with place := .summit r })
      else if x.counted.contains p.tracked then finish (s.setPacket k on)
      else match x.install (p.entry false) p.inp with
        | some x => finish ((s.setRouter r { x with counted := p.tracked :: x.counted }).setPacket k on)
        | none => finish ((s.dropPacket k).sendFull r p)

/-- R258: an UNSUB packet at a router on its route; a resent one takes nothing away twice (R266). -/
def execRouterUnsub (k : Nat) (s : State) : Host.Outcome State Fault Refusal :=
  match s.newAt k 2 3 with
  | none => .next s
  | some (r, p) =>
    match s.takeIn r k p with
    | (s, false) => finish s
    | (s, true) =>
      let x := s.router r
      let on := { p with routed := true }
      if p.dmod ≠ s.modid then finish (s.setPacket k on)
      else if hostTile p.dest.toNat = r then finish (s.setPacket k { p with place := .summit r })
      else if x.counted.contains p.tracked then finish (s.setPacket k on)
      else
        let y := (x.uninstall (p.entry false) p.inp).getD x
        finish ((s.setRouter r { y with counted := p.tracked :: y.counted }).setPacket k on)

/-- R258: a TBLFULL answer passes a router on its way back, and takes away the count that its packet added there, once. -/
def execRouterAnswer (k : Nat) (s : State) : Host.Outcome State Fault Refusal :=
  match s.newAt k 3 3 with
  | none => .next s
  | some (r, p) =>
    match p.path with
    | (r', port) :: rest =>
      if r' ≠ r then .next s
      else match s.takeIn r k p with
        | (s, false) => finish s
        | (s, true) =>
          let x := s.router r
          let e := { p.entry false with summit := p.full.getD p.orig }
          let y := if x.counted.contains p.answered then
              let y := (x.uninstall e port).getD x
              { y with counted := y.counted.filter fun i => i != p.answered }
            else x
          finish ((s.setRouter r y).setPacket k { p with routed := true, want := [{ port }], path := rest })
    | [] => .next s

/-! ### Retention (R261, R262) -/

/-- Whether a retained publication is retained still at a tick. -/
def Retained.live (x : Retained) (tick : BitVec 32) : Bool := decide ((tick - x.tick).toNat < x.keep.toNat)

/-- Bytes of a list of retained publications. -/
def retainedBytes (l : List Retained) : Nat := (l.map fun x => 32 * x.payload.length).sum

/-- The oldest retained publications evicted until `n` more bytes fit in 512 KiB, and how many (R262). -/
def evictRetained (n : Nat) : List Retained → List Retained × Nat
  | [] => ([], 0)
  | x :: r =>
    if retainedBytes (x :: r) + n ≤ 524288 then (x :: r, 0)
    else
      let (l, k) := evictRetained n r
      (l, k + 1)

/-- A publication retained by its summit (R261, R262). -/
def State.retain (s : State) (p : Packet) : State :=
  let keep := s.keepOf p.job.toNat (nameTens p.name)
  if keep = 0 then s
  else
    let sp := spurOf p.dest.toNat
    let y := s.spur sp
    let others := y.retained.filter fun x => x.live s.tkcnt && !(x.job == p.job && x.name == p.name && x.tag == p.tag)
    let (l, n) := evictRetained (32 * p.payload.length) others
    let new : Retained := { job := p.job, name := p.name, tag := p.tag, payload := p.payload, summit := p.dest,
                            tick := s.tkcnt, keep }
    s.setSpur sp { y with retained := l ++ [new], retev := satInc y.retev n }

/-- R261: a retained publication whose KEEP ticks have passed is retained no longer. -/
def execRetentionExpiry (sp k : Nat) (s : State) : Host.Outcome State Fault Refusal :=
  let y := s.spur sp
  match y.retained[k]? with
  | some x => if x.live s.tkcnt then .next s else finish (s.setSpur sp { y with retained := y.retained.eraseIdx k })
  | none => .next s

/-! ### Order at a summit (R259) -/

/-- Whether two packets' patterns hold a common name. -/
def Packet.overlaps (p q : Packet) : Bool :=
  let one (x : Packet) : Bool := x.typ = 0 || x.typ = 7 || x.typ = 8
  let lastRow (x : Packet) := if one x then nameRow x.name else x.row1
  let lastCol (x : Packet) := if one x then nameCol x.name else x.col1
  p.job == q.job && nameTens p.name == nameTens q.name
    && decide ((nameRow p.name).toNat ≤ (lastRow q).toNat) && decide ((nameRow q.name).toNat ≤ (lastRow p).toNat)
    && decide ((nameCol p.name).toNat ≤ (lastCol q).toNat) && decide ((nameCol q.name).toNat ≤ (lastCol p).toNat)

/-- Whether a packet is a SUB, UNSUB, REQ, GRANT, OPEN or climbing PUB that waits at its summit's router. -/
def Packet.waitsAt (p : Packet) (r : Nat) : Bool :=
  (p.place == .summit r || (p.place == .router r && !p.void && hostTile p.dest.toNat == r)) && p.mt.isNone
    && (p.typ == 1 || p.typ == 2 || p.typ == 4 || p.typ == 8 || (p.typ == 0 && !p.serve && !p.dir) || (p.typ == 7 && !p.dir))

/-- Whether packet `k` may be applied at a summit: none that reached it before names one of its names (R259). -/
def State.inOrder (s : State) (r k : Nat) (p : Packet) : Bool :=
  !((s.packets.take k).any fun q => q.waitsAt r && q.dest == p.dest && q.overlaps p)

/-- Whether the summit of a packet has applied it before (R266). -/
def State.seenAt (s : State) (p : Packet) : Bool := (s.tile p.dest.toNat).seen.contains p.ident

/-- A packet entered as applied by its summit, and acknowledged (R266). -/
def State.applyOnce (s : State) (p : Packet) : State :=
  let t := p.dest.toNat
  let x := s.tile t
  (s.setTile t { x with seen := p.ident :: x.seen }).ack t p 0

/-! ### Publications (R256) -/

/-- The ports of F that the table gives a publication (R256): never the mesh port of arrival, unless a reduction node stands there, whose
border port acts as a local port (R396); a rim port is no mesh port. -/
def State.pubPorts (s : State) (r : Nat) (p : Packet) : List Port :=
  ([.n, .e, .s, .w, .l] : List Port).filter fun q =>
    (q == .l || q != p.inp || (neighbour r q).isNone || s.reductionsAt r q p != 0) && decide (0 < (s.router r).countAt q p)

/-- Requests for a list of ports. -/
def wants (ps : List Port) : List Want := ps.map fun port => { port }

/-- Packet `k` with its requests; a publication that no port takes is gone. -/
def State.setWants (s : State) (k : Nat) (p : Packet) (w : List Want) : State :=
  if w.isEmpty then s.voidPacket k p else s.setPacket k { p with routed := true, want := w }

/-- R256: a router forwards a PUB to its matching ports; at the summit the PUB, once it is whole, is performed, acknowledged and
retained. -/
def execRouterPub (k : Nat) (s : State) : Host.Outcome State Fault Refusal :=
  match s.newAt k 0 2 with
  | none => .next s
  | some (r, p) =>
    if p.serve ∨ p.dmod ≠ s.modid then .next s
    else
      let top := !p.dir && decide (hostTile p.dest.toNat = r)
      if top && !(p.left = 0 && s.inOrder r k p) then .next s
      else match s.takeIn r k p with
        | (s, false) => finish s
        | (s, true) =>
          let ports := s.pubPorts r p
          if top then
            if p.poison then finish ((s.dropPacket k).ack p.dest.toNat p 1)
            else if s.seenAt p then finish ((s.dropPacket k).ack p.dest.toNat p 0)
            else finish (((s.setWants k { p with dir := true } (wants ports)).applyOnce p).retain p)
          else if p.dir then finish (s.setWants k p (wants ports))
          else match s.nextHop r p with
            | none => finish s
            | some (port, det) =>
              finish (s.setWants k p ({ port, det } :: (wants (ports.filter fun q => q != port))))

/-! ### SUB, UNSUB and REQ at a summit (R258, R263, R395) -/

/-- The names of a packet's range. -/
def Packet.names (p : Packet) : List Word :=
  let r0 := nameRow p.name
  let c0 := nameCol p.name
  (List.range (p.row1.toNat + 1 - r0.toNat)).flatMap fun i =>
    (List.range (p.col1.toNat + 1 - c0.toNat)).map fun j =>
      mkName (nameTens p.name) (r0 + BitVec.ofNat 20 i) (c0 + BitVec.ofNat 20 j)

/-- The names of a packet's range whose summit is its DEST (R258, R263). -/
def State.namesHere (s : State) (p : Packet) : List Word := p.names.filter fun n => s.summitOf p.job n == p.dest

/-- The retained publications that serve a SUB or REQ, in the order in which they were retained (R261). -/
def State.serving (s : State) (p : Packet) (names : List Word) : List Retained :=
  (s.spur (spurOf p.dest.toNat)).retained.filter fun x =>
    x.job == p.job && x.live s.tkcnt && x.summit == p.dest && names.contains x.name && tagMatches p.mode p.tag x.tag

/-- A SERVE copy of a retained publication sent to a packet's origin (R261). -/
def State.sendServe (s : State) (p : Packet) (x : Retained) : State :=
  (s.inject p.dest.toNat noIssuer
    { typ := 0, vc := 2, serve := true, dir := true, name := x.name, tag := x.tag, payload := x.payload, dest := p.orig,
      dmod := p.omod, rorig := p.rorig, node := p.node }).1

/-- The quay whose directory range holds a name of a job (R254, R263). -/
def State.rangeQuay (s : State) (job : BitVec 12) (n : Word) : Option Nat :=
  (List.range 32).find? fun q => (s.quay q).ranges.any fun e =>
    e.job == job && e.tens == nameTens n && decide (e.row0.toNat ≤ (nameRow n).toNat)
      && decide ((nameRow n).toNat ≤ e.row1.toNat) && decide (e.col0.toNat ≤ (nameCol n).toNat)
      && decide ((nameCol n).toNat ≤ e.col1.toNat)

/-- What the summit does for one name that retention does not serve (R263): a FALL, or for a REQ without a range the record of a lost
delivery. -/
def State.fallOr (s : State) (p : Packet) (n : Word) : State :=
  match s.rangeQuay p.job n with
  | some q =>
    (s.inject p.dest.toNat noIssuer
      { typ := 5, vc := 0, name := n, tag := p.tag, dest := BitVec.ofNat 17 (quayCode q), dmod := s.modid }).1
  | none =>
    if p.typ = 4 then
      s.postJob p.job.toNat { typ := 0x18, ltn := p.dest.toNat, job := p.job, inc := (s.job p.job.toNat).inc, w4 := n,
                              w5 := p.tag.setWidth 64 }
    else s

/-- Retention and fall-through for a SUB or REQ at its summit, under the tree entries that stood before it (R261, R263); for a name
homed on another module the packet goes there once (R395). -/
def State.serveNames (s : State) (p : Packet) (before : List NmtEnt) : State :=
  let names := s.namesHere p
  let kept := s.serving p names
  let inTree (n : Word) := before.any fun e =>
    e.job == p.job && e.tens == nameTens n && e.summit == p.dest && decide (e.row0.toNat ≤ (nameRow n).toNat)
      && decide ((nameRow n).toNat ≤ e.row1.toNat) && decide (e.col0.toNat ≤ (nameCol n).toNat)
      && decide ((nameCol n).toNat ≤ e.col1.toNat)
  let bare := names.filter fun n => !(kept.any fun x => x.name == n)
  let s := kept.foldl (fun s x => s.sendServe p x) s
  match s.remoteOf p.job (nameTens p.name) with
  | some e =>
    if bare.any fun n => !inTree n then
      (s.inject p.dest.toNat noIssuer
        { typ := p.typ, vc := 0, name := p.name, row1 := p.row1, col1 := p.col1, mode := p.mode, tag := p.tag,
          frame := p.frame, slot := p.slot, dest := p.dest, dmod := e.mod }).1
    else s
  | none =>
    (bare.filter fun n => p.typ = 4 || !inTree n).foldl (fun s n => s.fallOr p n) s

/-- An ANS from a packet's summit (R258). -/
def State.answerFrom (s : State) (p : Packet) (status : BitVec 4) : State :=
  (s.inject p.dest.toNat noIssuer (p.answer status)).1

/-- R258, R263: a summit applies a SUB, UNSUB or REQ in its order. -/
def execSummitApply (k : Nat) (s : State) : Host.Outcome State Fault Refusal :=
  match s.packets[k]? with
  | none => .next s
  | some p =>
    match p.place with
    | .summit r =>
      if !(s.routerLive r && (p.typ == 1 || p.typ == 2 || p.typ == 4) && s.inOrder r k p) then .next s
      else
        let s := s.dropPacket k
        if p.poison then finish (s.ack p.dest.toNat p 1)
        else if s.seenAt p then finish (s.ack p.dest.toNat p 0)
        else
          let s := s.applyOnce p
          let x := s.router r
          if p.typ = 1 then
            match x.install (p.entry true) p.inp with
            | none => finish (s.sendFull r p)
            | some x' => finish (((s.setRouter r x').serveNames p x.entries).answerFrom p 0)
          else if p.typ = 2 then
            match x.uninstall (p.entry true) p.inp with
            | none => finish (s.answerFrom p 3)
            | some x' => finish ((s.setRouter r x').answerFrom p 0)
          else finish (s.serveNames p x.entries)
    | _ => .next s

/-! ### Fall-through (R264) -/

/-- An ACK from a quay (R266). -/
def State.quayAck (s : State) (q : Nat) (p : Packet) (status : BitVec 4) : State :=
  (s.injectQuay q p.job { typ := 12, vc := 0, dest := p.orig, dmod := p.omod, rorig := p.rorig, node := p.node, aux := p.oseq,
                          status, name := p.name } false).1

/-- R264: a FALL reaches its quay, and the read of the block starts unless one for it is outstanding; a quay does nothing for a unit in a
GATE (R367). -/
def execQuayFall (k : Nat) (s : State) : Host.Outcome State Fault Refusal :=
  match s.packets[k]? with
  | none => .next s
  | some p =>
    match p.place with
    | .quay q =>
      if p.typ ≠ 5 ∨ p.mt.isSome ∨ p.left ≠ 0 ∨ s.gating p.orig.toNat p.job then .next s
      else
        let s := s.dropPacket k
        if p.poison || p.corrupt then finish (s.quayAck q p 1)
        else
          let s := s.quayAck q p 0
          let y := s.quay q
          if y.seen.contains p.ident then finish s
          else
            let y := { y with seen := p.ident :: y.seen }
            let ent := y.ranges.find? fun e =>
              e.job == p.job && e.tens == nameTens p.name && decide (e.row0.toNat ≤ (nameRow p.name).toNat)
                && decide ((nameRow p.name).toNat ≤ e.row1.toNat) && decide (e.col0.toNat ≤ (nameCol p.name).toNat)
                && decide ((nameCol p.name).toNat ≤ e.col1.toNat)
            let busy := y.falls.any fun f => f.job == p.job && f.name == p.name && f.tag == p.tag
            match ent, busy with
            | some ent, false =>
              let f : FallRead := { job := p.job, name := p.name, tag := p.tag, summit := p.orig, ent }
              finish (s.setQuay q { y with falls := y.falls ++ [f] })
            | _, _ => finish (s.setQuay q y)
    | _ => .next s

/-- The bytes of a run of virtual addresses of a job, read at their homes by a quay, or the address at which the walk faults. -/
def State.readVa (s : State) (q job : Nat) : Nat → Nat → Nat → State × Except Nat (List Byte)
  | 0, _, _ => (s, .ok [])
  | m + 1, va, n =>
    if n = 0 then (s, .ok [])
    else match s.walk job va with
      | .fault _ _ => (s, .error va)
      | .hole pa => ({ s with stuck := some pa }, .error va)
      | .leaf e b =>
        let size := min n (2 ^ b - va % 2 ^ b)
        let pa := s.physKey e (leafBase e + va % 2 ^ b)
        let a : Asker := { ltn := quayCode q, job := BitVec.ofNat 12 job }
        let (s, bs) := if leafMside e then (s.tierAccess a pa size false, s.pbytes pa size) else s.homeBytes a pa size
        match s.readVa q job m (va + size) (n - size) with
        | (s, .ok rest) => (s, .ok (bs ++ rest))
        | r => r

/-- The address and the length of the block that a fall-through read names (R227, R264). -/
def FallRead.block (f : FallRead) : Nat × Nat :=
  let n := f.ent.brows.toNat * f.ent.bcols.toNat * 2 ^ f.ent.esz.toNat
  (f.ent.base.toNat + ((nameRow f.name).toNat * f.ent.nbc.toNat + (nameCol f.name).toNat) * n, n)

/-- R264: a quay's read completes, and the quay publishes the block or posts a fall-through fault; not for a unit in a GATE (R367). -/
def execQuayFallPublish (q k : Nat) (s : State) : Host.Outcome State Fault Refusal :=
  let y := s.quay q
  match y.falls[k]? with
  | none => .next s
  | some f =>
    if s.gating f.summit.toNat f.job then .next s else
    let s := s.setQuay q { y with falls := y.falls.eraseIdx k }
    let (va, n) := f.block
    match s.readVa q f.job.toNat 3 va n with
    | (s, .error bad) =>
      finish (s.postJob f.job.toNat { typ := 0x19, ltn := quayCode q, job := f.job, inc := (s.job f.job.toNat).inc,
                                      w4 := f.name, w5 := BitVec.ofNat 64 bad })
    | (s, .ok bs) =>
      let p := { s.mkPub f.job f.name f.tag (flitsOf (n / 32) bs) with dest := f.summit, dmod := s.modid }
      finish (s.injectQuay q f.job p true).1

/-! ### Streams at the summit (R268) -/

/-- The record of a stream conflict (R269, R360). -/
def State.postConflict (s : State) (job : BitVec 12) (ltn : Nat) (name : Word) (second : Nat) : State :=
  s.postJob job.toNat { typ := 0x1B, ltn, job, inc := (s.job job.toNat).inc, w4 := name, w5 := BitVec.ofNat 64 second }

/-- A stream's record at its summit. -/
def Spur.stream (y : Spur) (p : Packet) : StreamRec :=
  (y.streams.find? fun x => x.job == p.job && x.name == p.name).getD
    { job := p.job, name := p.name, summit := p.dest, receiver := none, sender := none, held := 0 }

/-- The spur with a stream's record replaced. -/
def Spur.setStream (y : Spur) (x : StreamRec) : Spur :=
  { y with streams := x :: y.streams.filter fun z => !(z.job == x.job && z.name == x.name) }

/-- A GRANT unicast to the sender, with the receiver's LTN in COL1 (log entry 31). -/
def State.forwardGrant (s : State) (p : Packet) (sender receiver : BitVec 17) (n : Nat) : State :=
  (s.inject p.dest.toNat noIssuer
    { typ := 7, vc := 0, dir := true, name := p.name, aux := BitVec.ofNat 32 n, dest := sender, dmod := s.modid,
      col1 := receiver.setWidth 20 }).1

/-- The links of the dimension-order path from a router, as far as a field's border. -/
def pathHops (f dest : Nat) : Nat → Nat → List (Nat × Port)
  | 0, _ => []
  | n + 1, r =>
    let p := dorPort r dest
    match neighbour r p with
    | some r' => if fieldOf r' = f then (r, p) :: pathHops f dest n r' else []
    | none => []

/-- The static route of a paired stream set up where every link of its path has a free one of four (R268). -/
def State.setRoute (s : State) (x : StreamRec) : State :=
  match x.sender, x.receiver with
  | some a, some b =>
    let f := fieldOf a.toNat
    let y := s.field f
    let hops := pathHops f (hostTile b.toNat) 64 (hostTile a.toNat)
    let free := hops.all fun h => decide ((y.routes.filter fun z => z.hops.contains h).length < 4)
    if free && !(y.routes.any fun z => z.job == x.job && z.name == x.name) then
      s.setField f { y with routes := y.routes ++ [{ job := x.job, name := x.name, sender := a, receiver := b, hops }] }
    else s
  | _, _ => s

/-- A GRANT or OPEN of packet `k` taken by its summit: acknowledged, and applied once. -/
def State.takeAtSummit (s : State) (k : Nat) (typ : BitVec 4) : Option (State × Option Packet) :=
  match s.packets[k]? with
  | none => none
  | some p =>
    match p.place with
    | .summit r =>
      if p.typ ≠ typ || !(s.routerLive r && s.inOrder r k p) then none
      else
        let s := s.dropPacket k
        if p.poison then some (s.ack p.dest.toNat p 1, none)
        else if s.seenAt p then some (s.ack p.dest.toNat p 0, none)
        else some (s.applyOnce p, some p)
    | _ => none

/-- R268: a GRANT reaches its stream's summit and is held or forwarded; one from a second receiver is ignored and recorded. -/
def execGrantAtSummit (k : Nat) (s : State) : Host.Outcome State Fault Refusal :=
  match s.takeAtSummit k 7 with
  | none => .next s
  | some (s, none) => finish s
  | some (s, some p) =>
    let sp := spurOf p.dest.toNat
    let x := (s.spur sp).stream p
    let n := p.aux.toNat % 65536
    if x.receiver.isSome && x.receiver != some p.orig then
      finish (s.postConflict p.job p.dest.toNat p.name p.orig.toNat)
    else
      let y := { x with receiver := some p.orig }
      match x.sender with
      | some a =>
        let s := s.setSpur sp ((s.spur sp).setStream y)
        finish ((if x.receiver.isNone then s.setRoute y else s).forwardGrant p a p.orig n)
      | none => finish (s.setSpur sp ((s.spur sp).setStream { y with held := min (y.held + n) 65535 }))

/-- R268: an OPEN reaches its stream's summit and pairs the sender with the receiver; one from a second sender is recorded. -/
def execOpenAtSummit (k : Nat) (s : State) : Host.Outcome State Fault Refusal :=
  match s.takeAtSummit k 8 with
  | none => .next s
  | some (s, none) => finish s
  | some (s, some p) =>
    let sp := spurOf p.dest.toNat
    let x := (s.spur sp).stream p
    match x.sender with
    | some a =>
      if a = p.orig then finish s else finish (s.postConflict p.job p.dest.toNat p.name p.orig.toNat)
    | none =>
      let y := { x with sender := some p.orig, held := 0 }
      let s := s.setSpur sp ((s.spur sp).setStream y)
      match x.receiver with
      | some b => finish ((s.setRoute y).forwardGrant p p.orig b x.held)
      | none => finish s

end Sys2Proof.Machine
end

