-- ==== Sys2Proof/Machine/Ingress.lean ====
section
/-!
DEFINITION. Machine/Ingress.lean: what arrives at a tile: publications and stream messages (R202, R203, R226, R265, R267, R269),
answers (R199, R258), grants (R205), stale reports (R200, R437), acknowledgements and resends (R266).
-/
namespace Sys2Proof.Machine

/-! ### Deposits (R202, R203, R226) -/

/-- The view through which payloads are deposited for a subscription: swizzled for a slot of kind `tile` (R226, R240). -/
def State.depositView (s : State) (t : Nat) (r : SubRec) : View :=
  match s.tmpl t ((s.tile t).frame r.frame.toNat).tidx with
  | some m => if m.kind r.slot.toNat = 1 then .swizzled else .linear
  | none => .linear

/-- A record about a subscription. -/
def State.recordOfSub (s : State) (t typ : Nat) (r : SubRec) : FaultRec :=
  { s.jobRec t typ with frame := r.frame, tidx := ((s.tile t).frame r.frame.toNat).tidx, tag := r.tag }

/-- The state with local subscription record `i` of a tile replaced. -/
def State.setSub (s : State) (t i : Nat) (r : SubRec) : State :=
  let x := s.tile t
  s.setTile t { x with subs := x.subs.set i r }

/-- A fill on its way to the frame engine of a tile (R239). -/
def State.fillSlot (s : State) (t : Nat) (r : SubRec) (v : Word) (p : Packet) : State :=
  let x := s.tile t
  let q : Fill := { frame := r.frame, slot := r.slot, value := v, kind := .delivery,
                    origin := some (.packet p.orig p.oseq (p.node.isSome || p.omod != s.modid)) }
  s.setTile t { x with fills := x.fills ++ [q] }

/-- A publication deposited for one record that it matches: the first delivery of a name is stored and counted, and the slot is
filled when every name is counted (R202, R203). -/
def State.depositFor (s : State) (t : Nat) (p : Packet) (i : Nat) (r : SubRec) : State :=
  let idx := r.indexOf p.name
  if r.strm.isSome || !r.held.isEmpty then s.postConflict p.job t p.name p.orig.toNat
  else if r.counted.contains idx then s
  else if r.cap.toNat < p.payload.length then
    s.postJob p.job.toNat
      { s.recordOfSub t 0x14 r with w4 := p.name, w5 := BitVec.ofNat 64 (r.frame.toNat + r.slot.toNat * 256),
                                    w6 := BitVec.ofNat 64 (32 * p.payload.length) }
  else
    let s := s.portWrite t .deposit 2 t (s.depositView t r) (r.dst.toNat + 32 * r.cap.toNat * idx) (payloadBytes p.payload)
    let r := { r with counted := idx :: r.counted }
    let s := s.setSub t i r
    if r.counted.length = r.names.length then s.fillSlot t r (BitVec.ofNat 64 (wbase + r.dst.toNat)) p else s

/-- A publication deposited for every local record that it matches (R257). -/
def State.depositAll (s : State) (t : Nat) (p : Packet) : State :=
  (s.tile t).subs.zipIdx.foldl (fun s (r, i) =>
    if r.holds p.name && tagMatches r.mode r.tag p.tag then s.depositFor t p i r else s) s

/-- A REQ for every name that is not yet counted of every local record whose frame is in WAIT (R267). -/
def State.sendReqs (s : State) (t : Nat) : State :=
  let x := s.tile t
  (x.subs.filter fun r => (x.frame r.frame.toNat).st == .wait).foldl (fun s r =>
    ((r.names.filter fun n => !r.counted.contains (r.indexOf n)).foldl (fun s n =>
      let one := { r with row0 := nameRow n, row1 := nameRow n, col0 := nameCol n, col1 := nameCol n }
      (s.inject t noIssuer (s.subPacket 4 one (s.summitOf x.job n))).1) s)) s

/-- The subscription that takes a stream's messages: the one whose range is exactly its name (R268). -/
def Tile.streamSub (x : Tile) (n : Word) : Option (Nat × SubRec) :=
  firstSome (fun i => match x.subs[i]? with
    | some r => if r.holds n && r.names.length == 1 then some (i, r) else none
    | none => none) (List.range x.subs.length)

/-- A stream message held by its subscription until its turn, or dropped with a record when the subscription has taken publications
(R269). -/
def State.holdStream (s : State) (t : Nat) (p : Packet) : State :=
  match (s.tile t).streamSub p.name with
  | some (i, r) =>
    if !r.counted.isEmpty then s.postConflict p.job t p.name p.orig.toNat
    else s.setSub t i { r with held := r.held ++ [p] }
  | none => s

/-- R265: an ingress engine takes a whole PUB or STRM packet: it discards a damaged one, asking again for what a PUB would have
brought, and deposits a sound one, once (R266). -/
def execIngressPacket (k : Nat) (s : State) : Host.Outcome State Fault Refusal :=
  match s.ingressPacket k with
  | none => .next s
  | some (t, p) =>
    if p.typ = 6 then
      match s.takeUnicast k 6 with
      | some (s, some (t, p)) => finish (s.holdStream t p)
      | some (s, none) => finish s
      | none => .next s
    else if p.typ ≠ 0 then .next s
    else if p.corrupt || p.poison then
      let s := s.discardAt t k
      let s := if p.poison then s.ack t p 1 else s
      finish (s.sendReqs t)
    else
      let s := s.dropPacket k
      let s := if p.serve then s.ack t p 0 else s
      let x := s.tile t
      if p.job ≠ x.job ∨ x.taken.contains p.ident then finish s
      else finish ((s.setTile t { x with taken := p.ident :: x.taken }).depositAll t p)

/-- A stream message written into the ring, flit by flit, from flit `f` on (R269). -/
def State.writeRing (s : State) (t : Nat) (r : SubRec) : Nat → List (BitVec 256) → State
  | _, [] => s
  | f, x :: xs =>
    let off := r.dst.toNat + 32 * (f % r.cap.toNat)
    (s.portWrite t .deposit 2 t (s.depositView t r) off (leBytes 32 x.toNat)).writeRing t r (f + 1) xs

/-- R269: the receiver deposits the next message of a stream, in SSEQ order. -/
def execStrmDeposit (t k : Nat) (s : State) : Host.Outcome State Fault Refusal :=
  match (s.tile t).subs[k]? with
  | none => .next s
  | some r =>
    let (next, total) := r.strm.getD (0, 0)
    match r.held.find? fun p => p.sseq == next with
    | none => .next s
    | some p =>
      if !s.framesRun t then .next s
      else
        let n := p.payload.length
        let s := s.writeRing t r total p.payload
        let r := { r with strm := some (next + 1, total + n), held := r.held.filter fun q => q.sseq != next }
        finish ((s.setSub t k r).fillSlot t r (BitVec.ofNat 64 (total + n)) p)

/-! ### Answers (R199, R258) -/

/-- A SUB or UNSUB that is complete: its status lands, or is posted unless it is OK, and an UNSUB's record is removed (R199,
R204). -/
def State.completeSub (s : State) (t : Nat) (o : SubOp) (status : BitVec 4) : State :=
  let x := s.tile t
  let gone := o.unsub && (status == 0 || status == 3)
  let x := { x with subOps := x.subOps.filter fun y => y.op != o.op,
                    subs := if gone then x.subs.filter fun r => !r.same o.sub else x.subs }
  let s := s.setTile t x
  match o.goal with
  | .berth b bind =>
    let y := x.berths[b]
    if y.bind ≠ bind then s
    else s.setBerth t b { y with landing := y.landing.map fun e =>
      if e.wait == (.answer o.op : LandWait) then { e with data := status.setWidth 512, wait := .here } else e }
  | .post => if status = 0 then s else s.postSubStatus t status o.sub o.tidx
  | .drop => s

/-- A tile's staged copy of an OSEQ dropped. -/
def State.unstage (s : State) (t : Nat) (oseq : BitVec 32) : State :=
  let x := s.tile t
  s.setTile t { x with egress := x.egress.filter fun e => e.pkt.oseq != oseq }

/-- A TBLFULL about a subscription: its local record goes, and the packets to its other summits are reversed (R258). -/
def State.reverseSub (s : State) (t : Nat) (r : SubRec) (full : BitVec 17) : State :=
  let x := s.tile t
  let s := s.setTile t { x with subs := x.subs.filter fun y => !y.same r }
  (s.sendPattern t noIssuer 2 r ((s.subSummits x.job r).filter fun m => m != full)).1

/-- An operation that one of its packets has been answered with a status: the highest status of all answers counts (R258). -/
def State.answerOp (s : State) (t : Nat) (o : SubOp) (oseq : BitVec 32) (got : BitVec 4) : State :=
  let status := if o.status.toNat < got.toNat then got else o.status
  let waits := o.waits.filter fun w => w.2 != oseq
  if waits.isEmpty then s.completeSub t o status
  else
    let x := s.tile t
    s.setTile t { x with subOps := x.subOps.map fun y => if y.op = o.op then { y with waits, status } else y }

/-- The local record whose SUB a packet is. -/
def Tile.recordOf (x : Tile) (p : Packet) : Option SubRec :=
  x.subs.find? fun r => mkName r.tens r.row0 r.col0 == p.name && r.row1 == p.row1 && r.col1 == p.col1 && r.mode == p.mode && r.tag == p.tag
    && r.frame == p.frame && r.slot == p.slot

/-- R199: a summit's answer reaches the tile that issued the SUB or UNSUB. TBLFULL to a packet that a refresh re-sent for a SUB that was
complete removes its record all the same (R258, R272). -/
def execAnswerArrival (k : Nat) (s : State) : Host.Outcome State Fault Refusal :=
  match s.takeUnicast k 3 with
  | none => .next s
  | some (s, none) => finish s
  | some (s, some (t, p)) =>
    let sent := (s.tile t).egress.find? fun e => e.pkt.oseq == p.aux
    let s := s.unstage t p.aux
    let top := p.full.getD p.orig
    match (s.tile t).subOps.find? fun o => o.waits.any fun w => w.2 == p.aux with
    | none =>
      match decide (p.status = 1), sent.bind fun e => if e.pkt.typ = 1 then (s.tile t).recordOf e.pkt else none with
      | true, some r => finish (s.reverseSub t r top)
      | _, _ => finish s
    | some o =>
      let s := if p.status = 1 && !o.unsub && o.status == 0 then s.reverseSub t o.sub top else s
      finish (s.answerOp t o p.aux p.status)

/-! ### Grants (R205) -/

/-- R205: a forwarded grant adds to its sender's window. -/
def execGrantArrival (k : Nat) (s : State) : Host.Outcome State Fault Refusal :=
  match s.takeUnicast k 7 with
  | none => .next s
  | some (s, none) => finish s
  | some (s, some (t, p)) =>
    let x := s.tile t
    finish (s.setTile t { x with streams := x.streams.map fun (w : StreamTx) =>
      if w.name = p.name then { w with window := min (w.window + p.aux.toNat % 65536) 65535,
                                       receiver := some (p.col1.setWidth 17) }
      else w })

/-! ### Resending (R200, R266) -/

/-- The summit to which an UNSUB that operation `o` awaits goes when it is injected again: its own while that is a summit of the pattern still,
else the first summit of the pattern that no packet of the operation names (R200, R272; log entry 21). -/
def State.unsubDest (s : State) (t : Nat) (p : Packet) : BitVec 17 :=
  match (s.tile t).subOps.find? fun o => o.waits.any fun w => w.2 == p.oseq with
  | none => p.dest
  | some o =>
    let now := s.subSummits p.job o.sub
    if now.contains p.dest then p.dest else (now.find? fun m => !(o.waits.any fun w => w.1 == m)).getD p.dest

/-- The packet of a staged copy of origin `t` as it is injected again: under the generation of now, toward the summit or the placement of
now (R200, R272, R375). A TBLFULL answer goes back by the way that it went (R258). -/
def State.renew (s : State) (t r : Nat) (inp : Port) (p : Packet) : Packet :=
  let job := s.job p.job.toNat
  let dest := match p.typ.toNat with
    | 0 => if p.serve then p.dest else s.summitOf p.job p.name
    | 2 => s.unsubDest t p
    | 4 | 8 => s.summitOf p.job p.name
    | 7 => if p.dir then p.dest else s.summitOf p.job p.name
    | 9 => match s.findPop p.job.toNat (nameTens p.name) with
      | some q => q.list.getD ((nameCol p.name).toNat / q.per.toNat) p.dest
      | none => p.dest
    | 10 => match job.tmpls[p.aux.toNat % 65536]? with
      | some m => match m.tileFor p.tag with
        | some t => BitVec.ofNat 17 t
        | none => p.dest
      | none => p.dest
    | _ => p.dest
  let q := { p with dest, gen := (s.router r).gen, place := .router r, detour := false, left := 0, poison := false }
  if p.full.isSome then { q with routed := true, want := [{ port := p.inp }] }
  else { q with inp, want := [], routed := false, path := [] }

/-- The egress buffer of a tile, of a quay by its code, or of reduction node `n` by 2^17 + n. -/
def State.staged (s : State) (ltn : Nat) : List Staged :=
  if 2 ^ 17 ≤ ltn then (s.node (ltn - 2 ^ 17)).egress
  else match codeQuay ltn with
    | some q => (s.quay q).egress
    | none => (s.tile ltn).egress

/-- The state with an egress buffer replaced. -/
def State.setStaged (s : State) (ltn : Nat) (l : List Staged) : State :=
  if 2 ^ 17 ≤ ltn then s.setNode (ltn - 2 ^ 17) { s.node (ltn - 2 ^ 17) with egress := l }
  else match codeQuay ltn with
    | some q => s.setQuay q { s.quay q with egress := l }
    | none => s.setTile ltn { s.tile ltn with egress := l }

/-- A staged packet injected again, with its OSEQ (R266). -/
def State.reinject (s : State) (ltn : Nat) (p : Packet) : State :=
  let (r, inp) :=
    if 2 ^ 17 ≤ ltn then ((ltn - 2 ^ 17) / 8, Port.ofNum ((ltn - 2 ^ 17) % 8))
    else match codeQuay ltn with
      | some q => (s.quayGate q p.dest, (quayRim q).2)
      | none => (hostTile ltn, Port.l)
  { s with packets := s.packets ++ [s.renew ltn r inp p] }

/-- The LTN that a record names for an egress buffer (R437). -/
def bufferLtn (ltn : Nat) : Nat := if 2 ^ 17 ≤ ltn then nodeCode (ltn - 2 ^ 17) else ltn

/-- Staged copy `k` resent, or after four resends discarded with a link-loss record (R266). -/
def State.resend (s : State) (ltn k : Nat) : State :=
  let l := s.staged ltn
  match l[k]? with
  | none => s
  | some e =>
    if e.resends < 4 then
      (s.setStaged ltn (l.set k { e with resends := e.resends + 1 })).reinject ltn e.pkt
    else
      (s.setStaged ltn (l.eraseIdx k)).postCaptured e.pkt.job.toNat e.inc
        { typ := 0x1A, ltn := bufferLtn ltn, job := e.pkt.job, inc := e.inc, w4 := e.pkt.name, w5 := e.pkt.oseq.setWidth 64,
          w6 := e.pkt.typ.setWidth 64 }

/-- Whether the tile, quay or node of a buffer can send. -/
def State.sends (s : State) (ltn : Nat) : Bool :=
  if 2 ^ 17 ≤ ltn then s.routerLive ((ltn - 2 ^ 17) / 8)
  else match codeQuay ltn with
    | some _ => s.booted
    | none => s.tileLive ltn

/-- R266: 65,536 cycles have passed without an ACK for a staged copy. -/
def execResendTimeout (t k : Nat) (s : State) : Host.Outcome State Fault Refusal :=
  match (s.staged t)[k]? with
  | some e => if s.sends t && !e.stopped then finish (s.resend t k) else .next s
  | none => .next s

/-- The egress buffer whose tile, quay or node packet `k` of a type, an ACK or a STALE, has reached, and the state with it taken. -/
def State.takeNotice (s : State) (k : Nat) (typ : BitVec 4) : Option (State × Option (Nat × Packet)) :=
  match s.packets[k]? with
  | some p =>
    match p.place with
    | .quay q =>
      if p.typ ≠ typ ∨ p.left ≠ 0 ∨ p.mt.isSome then none
      else if p.corrupt || p.poison then some (s.dropPacket k, none)
      else some (s.dropPacket k, some (quayCode q, p))
    | .node n =>
      if p.typ ≠ typ ∨ p.left ≠ 0 ∨ p.mt.isSome then none
      else if p.corrupt || p.poison then some (s.dropPacket k, none)
      else some (s.dropPacket k, some (2 ^ 17 + n, p))
    | _ => s.takeUnicast k typ
  | none => none

/-- R266: an ACK frees the staged copy that it names; with STATUS 1 it makes the origin resend it. -/
def execAckArrival (k : Nat) (s : State) : Host.Outcome State Fault Refusal :=
  match s.takeNotice k 12 with
  | none => .next s
  | some (s, none) => finish s
  | some (s, some (ltn, p)) =>
    let l := s.staged ltn
    match l.findIdx? fun e => e.pkt.oseq == p.aux with
    | none => finish s
    | some i => if p.status = 1 then finish (s.resend ltn i) else finish (s.setStaged ltn (l.eraseIdx i))

/-! ### Stale reports (R200, R437) -/

/-- The stale-generation trap of a packet's second report (R437): pending on the berth of its binding, or posted as record 0x11 when
the binding has ended or none caused the packet. -/
def State.raiseStale (s : State) (ltn : Nat) (e : Staged) : State :=
  let p := e.pkt
  let r : FaultRec := { typ := 0x11, ltn := bufferLtn ltn, inc := e.inc, job := p.job, w4 := p.oseq.setWidth 64, w5 := p.typ.setWidth 64 }
  if e.who.bind = 0 then s.postCaptured p.job.toNat e.inc r
  else
    let y := s.berth ltn e.who.berth
    if y.bind = e.who.bind ∧ y.status ≠ .free ∧ y.status ≠ .ending then
      s.setBerth ltn e.who.berth
        { y with faults := y.faults ++ [mkTrap 0x09 0 0 (BitVec.ofNat 64 (p.oseq.toNat + p.typ.toNat * 2 ^ 32)) 0] }
    else
      s.postCaptured p.job.toNat e.inc
        { r with berth := e.who.berth.val, frame := e.who.frame, tidx := e.who.tidx, tag := e.who.tag }

/-- The operation that awaits the answer to a packet. -/
def Tile.opOf (x : Tile) (oseq : BitVec 32) : Option SubOp :=
  x.subOps.find? fun o => o.waits.any fun w => w.2 == oseq

/-- The second stale report of a SUB that still awaits answers: STALE lands, and what was installed is removed (R200). -/
def State.staleSub (s : State) (t : Nat) (o : SubOp) : State :=
  let x := s.tile t
  let s := s.setTile t { x with subs := x.subs.filter fun r => !r.same o.sub }
  let s := (s.sendPattern t noIssuer 2 o.sub (s.subSummits x.job o.sub)).1
  s.completeSub t o (if o.status.toNat < 2 then 2 else o.status)

/-- A stale report about staged copy `i` (R200). A SUB whose record is gone is not re-sent by a refresh, and ends with its status (R204); a
report about a copy that waits to be injected again is the first one still. -/
def State.reportStale (s : State) (ltn i : Nat) (e : Staged) : State :=
  let l := s.staged ltn
  let gone := s.setStaged ltn (l.eraseIdx i)
  if e.stopped then s
  else if e.pkt.typ = 1 then
    match (s.tile ltn).opOf e.pkt.oseq with
    | some o =>
      if !((s.tile ltn).subs.any fun r => r.same o.sub) then gone.answerOp ltn o e.pkt.oseq o.status
      else if e.again && !o.unsub then gone.staleSub ltn o else gone
    | none => gone
  else if !e.again then
    if s.refresh.contains ltn then s.setStaged ltn (l.set i { e with stopped := true, again := true })
    else (s.setStaged ltn (l.set i { e with again := true })).reinject ltn e.pkt
  else if e.pkt.typ = 2 then
    match (s.tile ltn).opOf e.pkt.oseq with
    | some o => gone.completeSub ltn o (if o.status.toNat < 2 then 2 else o.status)
    | none => gone
  else gone.raiseStale ltn e

/-- R200: a stale-generation report reaches the origin of the packet that it names. -/
def execStaleArrival (k : Nat) (s : State) : Host.Outcome State Fault Refusal :=
  match s.takeNotice k 11 with
  | none => .next s
  | some (s, none) => finish s
  | some (s, some (ltn, p)) =>
    match (s.staged ltn).findIdx? fun e => e.pkt.oseq == p.aux with
    | none => finish s
    | some i =>
      match (s.staged ltn)[i]? with
      | some e => finish (s.reportStale ltn i e)
      | none => finish s

end Sys2Proof.Machine
end

