-- ==== Sys2Proof/Machine/Links.lean ====
section
/-!
DEFINITION. Machine/Links.lean: the mesh links (R384 to R387, R371), the reachability sweep and the detour tables (R374, R388),
retired tiles (R372, R375) and the retirement log and grade (R422, R423).
-/
namespace Sys2Proof.Machine

/-! ### Dead links (R371, R386) -/

/-- A packet at router `r` whose request at a dead port is dropped: what is routed by DEST looks for another way, a publication loses
the branch. -/
def Packet.unwant (p : Packet) (port : Port) : Packet :=
  if p.want.any fun w => w.port == port then
    if p.typ = 0 ∧ !p.serve then { p with want := p.want.filter fun w => w.port != port }
    else { p with want := [], path := [] }
  else p

/-- A packet that no flit reaches any more: one that was still arriving ends with a poisoned tail (R371); a memory transaction, which has no
tail, is whole all the same (log entry 65). -/
def Packet.severed (p : Packet) : Packet := { p with left := 0, due := 0, fed := none, poison := p.poison || p.mt.isNone }

/-- A packet after the link at port `port` of router `r` has died: one that crosses it ends with a poisoned tail. -/
def Packet.cut (p : Packet) (r : Nat) (port : Port) : Packet :=
  if p.place ≠ .router r then p
  else if p.inp = port ∧ p.left ≠ 0 then p.severed
  else p.unwant port

/-- Whether a packet is at its end: a publication that no port takes, or a discarded packet whose flits have all arrived. -/
def Packet.spent (p : Packet) : Bool := p.left = 0 && (p.void || (p.mt.isNone && p.typ = 0 && !p.serve && p.routed && p.want.isEmpty))

/-- The link at a port of a router dead in both directions, counted in the field (R371, R386). -/
def State.cutLink (s : State) (r : Nat) (port : Port) : State :=
  match neighbour r port with
  | none => s
  | some n =>
    if ((s.router r).link port).dead then s
    else
      let x := s.router r
      let s := s.setRouter r (x.setLink port { x.link port with dead := true, replay := [], next := 0 })
      let y := s.router n
      let s := s.setRouter n (y.setLink port.opposite { y.link port.opposite with dead := true, replay := [], next := 0 })
      let f := s.field (fieldOf r)
      let s := s.setField (fieldOf r) { f with deadLinks := satInc f.deadLinks 1 }
      { s with packets := (s.packets.map fun p => (p.cut r port).cut n port.opposite).filter fun p =>
          !((p.place == .router r || p.place == .router n) && p.spent) }

/-- Whether the dimension-order path from a router to another, of at most `n` hops, uses the link between two routers. -/
def pathUses (a b dest : Nat) : Nat → Nat → Bool
  | 0, _ => false
  | n + 1, r =>
    match neighbour r (dorPort r dest) with
    | some r' => (r == a && r' == b) || (r == b && r' == a) || pathUses a b dest n r'
    | none => false

/-- The tiles that a dead link affects: those that take packets and hold a subscription with a summit to which their SUB went over the link
(R258, R267). -/
def State.affected (s : State) (a b : Nat) : List Nat :=
  s.tiles.filterMap fun kx =>
    let crosses (r : SubRec) : Bool :=
      (s.subSummits kx.2.job r).any fun m => pathUses a b (hostTile m.toNat) 512 (hostTile kx.1)
    if kx.2.job ≠ 0 ∧ (kx.2.subs.any fun r => (fieldOf kx.1 == fieldOf a) || crosses r) ∧ s.framesRun kx.1 then some kx.1 else none

/-- A link declared dead (R386): both directions die, the field is to run its sweep, record 0x22 is posted, and the affected tiles
ask again for what they miss (R267). -/
def State.declareDead (s : State) (r : Nat) (port : Port) : State :=
  let s := s.cutLink r port
  let s := s.setField (fieldOf r) { s.field (fieldOf r) with sweep := true }
  let s := s.postOrphan { typ := 0x22, ltn := r, w4 := BitVec.ofNat 64 port.num.val } false
  (s.affected r ((neighbour r port).getD r)).foldl State.sendReqs s

/-! ### Flits (R384, R385) -/

/-- The sender's end of the link by which router `r` receives at a port, when the link lives. -/
def State.senderOf (s : State) (r : Nat) (port : Port) : Option (Nat × LinkEnd) :=
  match neighbour r port with
  | some n => if s.routerLive r && s.linkLive r port then some (n, (s.router n).link port.opposite) else none
  | none => none

/-- The flit that the earliest packet crossing a link still waits for arrives; `bad` when its data were damaged and FCRC matched all the
same, so that the packet's CHECK no longer fits. -/
def arriveFlit (r : Nat) (port : Port) (bad : Bool) : List Packet → List Packet
  | [] => []
  | p :: ps =>
    if p.place = .router r ∧ p.inp = port ∧ p.due ≠ 0 then
      let q := { p with left := p.left - 1, due := p.due - 1, corrupt := p.corrupt || bad }
      if q.void ∧ q.left = 0 then ps else q :: ps
    else p :: arriveFlit r port bad ps

/-- The replay buffer once every flit before sequence number `upto` is acknowledged (R385). -/
def LinkEnd.acked (l : LinkEnd) (upto : BitVec 7) : LinkEnd :=
  match l.replay with
  | [] => l
  | f :: _ =>
    let n := min (upto - f.fseq).toNat l.replay.length
    if n = 0 then l else { l with replay := l.replay.drop n, next := l.next - n, fails := 0 }

/-- What the end of a link drives: its next flit, if there is one, and the acknowledgement of the
reverse direction (R384). -/
def LinkEnd.word (e : LinkEnd) : Option LinkFlit × LinkWord :=
  let ack := if e.nak then e.expect else e.expect - 1
  match e.replay[e.next]? with
  | some f => (some f, { data := f.data, side := sideband true e.nak ack f })
  | none => (none, { data := 0, side := BitVec.ofBool true ++ BitVec.ofBool e.nak ++ ack ++ 0#25 })

/-- The end of a link that has received a word's acknowledgement for its own direction; NAK is met by a step of its own. -/
def LinkEnd.takeAck (l : LinkEnd) (w : LinkWord) : LinkEnd := if w.av && !w.nak then l.acked (w.ackseq + 1) else l

/-- What becomes of a flit at the receiving end (R385): it is accepted when FCRC matches and FSEQ is the next number expected, and discarded
otherwise, with NAK; a failing FCRC is counted. -/
def LinkEnd.takeFlit (l : LinkEnd) (w : LinkWord) : LinkEnd × Bool :=
  if !w.good then ({ l with crcerr := satInc l.crcerr 1, nak := true }, false)
  else if w.fseq ≠ l.expect then ({ l with nak := true }, false)
  else ({ l with expect := l.expect + 1, nak := false }, true)

/-- R385: one word of a link reaches the receiver: the bits as they arrive where the wires changed them. Its sideband acknowledges the
reverse direction; its flit, if the sender had one to send, is accepted or discarded. -/
def execLinkFlitReceive (r : Nat) (p : Port) (wire : Option (BitVec 256 × BitVec 34)) (s : State) :
    Host.Outcome State Fault Refusal :=
  match s.senderOf r p with
  | none => .next s
  | some (n, e) =>
    let (f, sent) := e.word
    let w : LinkWord := match wire with
      | some b => { data := b.1, side := b.2 }
      | none => sent
    let x := s.router r
    let l := (x.link p).takeAck w
    match f with
    | none => finish (s.setRouter r (x.setLink p l))
    | some f =>
      let (l, ok) := l.takeFlit w
      let s := s.setRouter r (x.setLink p l)
      let y := s.router n
      let s := s.setRouter n (y.setLink p.opposite { e with next := e.next + 1 })
      finish (if ok then { s with packets := arriveFlit r p (w.data != f.data) s.packets } else s)

/-- A resend from the oldest unacknowledged flit: after NRETRY resends that failed, the link is dead (R385, R386). -/
def State.resendLink (s : State) (r : Nat) (port : Port) : State :=
  let x := s.router r
  let l := x.link port
  if (s.field (fieldOf r)).nretry.toNat ≤ l.fails then s.declareDead r port
  else s.setRouter r (x.setLink port { l with resend := satInc l.resend 1, fails := l.fails + 1, next := 0 })

/-- R385: the sender at port `p` of router `r` receives NAK: the flits before ACKSEQ are acknowledged, and it resends from ACKSEQ. -/
def execLinkNak (r : Nat) (p : Port) (s : State) : Host.Outcome State Fault Refusal :=
  match s.senderOf r p with
  | some (n, e) =>
    if e.nak then
      let x := s.router r
      let s := s.setRouter r (x.setLink p ((x.link p).acked e.expect))
      let y := s.router n
      let s := s.setRouter n (y.setLink p.opposite { y.link p.opposite with nak := false })
      finish (s.resendLink r p)
    else .next s
  | none => .next s

/-- R385: ACKTO cycles have passed without progress, and the sender resends from its oldest unacknowledged flit. -/
def execLinkAckTimeout (r : Nat) (p : Port) (s : State) : Host.Outcome State Fault Refusal :=
  match s.senderOf r p with
  | some _ => if ((s.router r).link p).replay.isEmpty then .next s else finish (s.resendLink r p)
  | none => .next s

/-! ### The retirement log and the grade (R419, R422, R423) -/

/-- Whether the physical tile of a logical tile failed test (R419). -/
def failedTile (f i : Nat) : Bool :=
  let y := i / 32
  match (List.range 34).find? fun c => carries f y c && columnsBelow f y c == i % 32 with
  | some c => !(Config.repairGood f y).getLsbD c
  | none => true

/-- The live count of a field (R422). -/
def State.liveCount (s : State) (f : Nat) : Nat :=
  ((List.range 1024).filter fun i => !failedTile f i && !s.cairn.log.contains (BitVec.ofNat 17 (2048 * f + i))).length

/-- The live count that a grade guarantees in every field (R423). -/
def gradeFloor (g : Nat) : Nat := if g = 0 then 1024 else if g = 1 then 1000 else if g = 2 then 960 else 0

/-- The grade checked: fuses are burned down to the best grade that the least live count still meets, with record 0x25 (R423). -/
def State.checkGrade (s : State) : State :=
  let counts := (List.range 64).map fun f => (f, s.liveCount f)
  let least := counts.foldl (fun (a : Nat × Nat) x => if x.2 < a.2 then x else a) (0, s.liveCount 0)
  let g := s.cairn.grade.toNat
  if gradeFloor g ≤ least.2 then s
  else
    let g' := (([0, 1, 2].filter fun k => decide (g < k)).find? fun k => decide (gradeFloor k ≤ least.2)).getD 3
    let s := { s with cairn := { s.cairn with grade := BitVec.ofNat 2 g' } }
    s.postOrphan { typ := 0x25, w4 := BitVec.ofNat 64 g, w5 := BitVec.ofNat 64 g', w6 := BitVec.ofNat 64 least.1,
                   w7 := BitVec.ofNat 64 least.2 } false

/-- A tile entered in the retirement log when it has room, LOGFULL when the log is full, and the grade checked (R422, R423). -/
def State.logRetired (s : State) (t : Nat) : State :=
  let c := s.cairn
  if c.log.contains (BitVec.ofNat 17 t) then s
  else if 1024 ≤ c.log.length then { s with cairn := { c with logfull := true } }
  else
    let log := c.log ++ [BitVec.ofNat 17 t]
    ({ s with cairn := { c with log, logfull := c.logfull || decide (1024 ≤ log.length) } }).checkGrade

/-! ### Retired tiles (R372, R375, R434) -/

/-- A tile without power and contents: what it keeps is whether it is retired, and the job that holds it. -/
def Tile.poweredOff (x : Tile) : Tile := { retired := x.retired, job := x.job }

/-- A memory transaction whose router dies reaches its destination all the same: no rule has it made again (log entry 65). -/
def Packet.landed (p : Packet) : Packet :=
  { p with left := 0, due := 0, fed := none, want := [],
           place := match codeQuay p.dest.toNat with
             | some q => .quay q
             | none => .tile p.dest.toNat }

/-- What becomes of a packet when tile `t` loses its power: what its router is sending ends with a poisoned tail, and what stands at
the tile is lost (R372); with its router, what stands there too. -/
def Packet.lose (t : Nat) (router : Bool) (p : Packet) : Option Packet :=
  let p := match p.fed with
    | some (r, _) => if router ∧ r = t ∧ p.left ≠ 0 then p.severed else p
    | none => p
  match p.place with
  | .tile u => if u = t then none else some p
  | .router r | .summit r => if router ∧ r = t then (if p.mt.isSome ∧ p.dest.toNat ≠ t then some p.landed else none) else some p
  | _ => some p

/-- A packet taken out of the network: what a link still carries of it is dropped as it arrives. -/
def Packet.stopped (p : Packet) : Option Packet :=
  match p.fed with
  | some _ => if p.due = 0 then none else some { p with void := true, left := p.due, fed := none }
  | none => if p.left = 0 then none else some { p with void := true }

/-- Whether a packet is a request to the spur-cache slice of tile `t`. -/
def Packet.asksSlice (p : Packet) (t : Nat) : Bool :=
  match p.mt with
  | some m => p.dest.toNat == t && !p.void && (m.mkind == 0 || m.mkind == 2)
  | none => false

/-- A request that the slice of tile `t` took with it made again, at the home; the slice holds nothing any more that a write-back could
bring home, and its request is acknowledged (log entry 65). -/
def State.askAgain (s : State) (t : Nat) (p : Packet) : State :=
  match p.mt with
  | none => s
  | some m =>
    if p.orig.toNat = t then s
    else match m.verb with
      | .flush _ => { s with packets := s.packets ++ [{ mt := some { mkind := 3, tid := m.tid }, dest := p.orig, orig := p.dest, dmod := s.modid,
                                                        omod := s.modid, job := p.job, vc := p.vc, place := .tile p.orig.toNat }] }
      | _ => s.sendMem p.orig.toNat (s.homeCode m.key) p.job p.vc m p.payload

/-- The spur cache without the slice of tile `t`: its dirty bytes go to their homes when the tile is retired, and are lost with its power
(R283, R307, R372; log entry 65). -/
def State.loseSlice (s : State) (t : Nat) (keep : Bool) : State :=
  let sp := spurOf t
  let y := s.spur sp
  let mine (c : Sector) : Bool := sliceTile sp c.key == t
  let again := s.packets.filter (fun (p : Packet) => p.asksSlice t) ++ (y.reads.filter fun r => r.tile == t).map (fun r => r.req)
    ++ (y.acks.filter fun a => a.tile == t).map fun a => a.req
  let s := s.setSpur sp { y with sectors := y.sectors.filter fun c => !mine c, reads := y.reads.filter fun r => r.tile != t,
                                 wb := y.wb.filter fun w => w.1 != t, acks := y.acks.filter fun a => a.tile != t }
  let out := if keep then y.sectors.filter fun c => mine c && c.dirty != 0 else []
  let s := out.foldl (fun s c => s.homeWrite (s.asker t) false false c.key c.dirty c.data) s
  let s := { s with packets := s.packets.filterMap fun (p : Packet) => if p.asksSlice t then p.stopped else some p }
  again.foldl (fun s p => s.askAgain t p) s

/-- A tile powered off and retired; a logical tile's slice, router and links go with it (R375, R434). -/
def State.powerOffTile (s : State) (t : Nat) : State :=
  let own := decide (indexOf t < 1024)
  let s := if own then s.loseSlice t true else s
  let s := s.setTile t { (s.tile t).poweredOff with retired := true }
  let s := if own then ([.n, .e, .s, .w] : List Port).foldl (fun s p => s.cutLink t p) s else s
  let s := { s with packets := s.packets.filterMap (Packet.lose t own) }
  if own then s.setRouter t { s.router t with dead := true, nmt := [], counted := [] } else s

/-- Record 0x21 (R360, R374, R375). -/
def State.postRetired (s : State) (t reason : Nat) : State :=
  s.postOrphan { typ := 0x21, ltn := t, w4 := BitVec.ofNat 64 reason } false

/-! ### The sweep (R374, R388) -/

/-- The index beyond a port inside the field. -/
def stepIndex (i : Nat) (p : Port) : Option Nat :=
  match p with
  | .n => if i < 32 then none else some (i - 32)
  | .s => if 992 ≤ i then none else some (i + 32)
  | .w => if i % 32 = 0 then none else some (i - 1)
  | .e => if i % 32 = 31 then none else some (i + 1)
  | .l => none

/-- Whether a router stands on a border to another field: a slipway (R268, R389). -/
def slipway (f i : Nat) : Bool :=
  ([.n, .e, .s, .w] : List Port).any fun p => crossesField (2048 * f + i) p

/-- The live routers beyond an index, with the port that leads back. -/
def State.liveNext (s : State) (f i : Nat) : List (Nat × Port) :=
  ([.n, .e, .s, .w] : List Port).filterMap fun p =>
    match stepIndex i p with
    | some j => if s.linkLive (2048 * f + i) p then some (j, p.opposite) else none
    | none => none

/-- Breadth-first from a frontier: the routers reached, each with the port toward its parent. -/
def State.reach (s : State) (f : Nat) : Nat → List Nat → SMap (BitVec 3) → SMap (BitVec 3)
  | 0, _, seen => seen
  | _, [], seen => seen
  | n + 1, i :: rest, seen =>
    let new := (s.liveNext f i).filter fun jp => (seen.find jp.1).isNone
    s.reach f n (rest ++ new.map (·.1)) (new.foldl (fun m jp => m.put jp.1 (BitVec.ofNat 3 jp.2.num.val)) seen)

/-- The trees of a field's live routers, rooted each at its lowest index: the routers marked, and the ports toward the parents. -/
def State.sweepTrees (s : State) (f : Nat) : List Nat × SMap (BitVec 3) :=
  let (_, marked, tree) := (List.range 1024).foldl (fun (a : List Nat × List Nat × SMap (BitVec 3)) i =>
    let (seen, marked, tree) := a
    if seen.contains i || !s.routerLive (2048 * f + i) then a
    else
      let got := s.reach f 1024 [i] [(i, 4)]
      let ids := got.map (·.1)
      if ids.any (slipway f) then
        (seen ++ ids, marked ++ ids, (got.filter fun kv => kv.1 != i).foldl (fun m kv => m.put kv.1 kv.2) tree)
      else (seen ++ ids, marked, tree)) (([], [], []) : List Nat × List Nat × SMap (BitVec 3))
  (marked, tree)

/-- A tile isolated by the sweep: record 0x21 with reason 1, and it is retired as R375 retires a tile. -/
def State.isolate (s : State) (t : Nat) : State := ((s.postRetired t 1).powerOffTile t).logRetired t

/-- The sweep of a field: the detour tables are written, and the tiles whose router is not marked are isolated (R374, R388). -/
def State.sweepField (s : State) (f : Nat) : State :=
  let (marked, tree) := s.sweepTrees f
  let s := s.setField f { s.field f with swept := true, tree, sweep := false }
  let lost := (List.range 1088).filter fun i =>
    !(s.tile (2048 * f + i)).retired && s.enabled (2048 * f + i) && !marked.contains (hostIndex f i)
  lost.foldl (fun s i => s.isolate (2048 * f + i)) s

/-- R374: the reachability sweep that a field is to run. A RETIRE whose sweep it is comes to its end (R375). -/
def execReachabilitySweep (f : Nat) (s : State) : Host.Outcome State Fault Refusal :=
  if (s.field f).sweep && (s.field f).powered then
    let s := s.sweepField f
    finish { s with retireBusy := s.retireBusy && fieldOf s.retire.toNat != f }
  else .next s

end Sys2Proof.Machine
end

