-- ==== Sys2Proof/Machine/Niesk.lean ====
section
/-!
DEFINITION. Machine/Niesk.lean: the Niesk ports: frames sent and received (R393), the headers that a receiving port rewrites (R394,
R395), and a port's death and coming up (R392, R393).
-/
namespace Sys2Proof.Machine

/-! ### Sending (R393, R394) -/

/-- The bytes of a Niesk frame of `n` flits on the wire: Ethernet header, Niesk header, flits and check sequence (log entry 33). -/
def nieskBytes (n : Nat) : Nat := 14 + 16 + 32 * n + 4

/-- The packet as it leaves by a port: one whose DEST is the port's code goes to the origin that RORIG names (R394). -/
def Packet.outgoing (p : Packet) : Packet :=
  match p.rorig with
  | some r => if (codeQuay p.dest.toNat).isSome then { p with dest := r } else p
  | none => p

/-- Bytes of a port's replay buffer in use. -/
def Quay.replayUsed (y : Quay) : Nat := (y.npreplay.map fun f => nieskBytes f.flits.length).sum

/-- Every frame that is not acknowledged sent again, oldest first (R392, R393). -/
def Quay.resend (y : Quay) : Quay :=
  { y with npretx := satInc y.npretx y.npreplay.length, nptx := satInc y.nptx y.replayUsed }

/-- Whether a port sends: enabled, its link up and not dead (R392). -/
def Quay.sends (y : Quay) : Bool := y.en && y.npup && !y.npdead

/-- A packet's request at a Niesk port, with the flits that frames have carried. -/
def Packet.atNiesk (p : Packet) : Want := p.want.headD { port := .l }

/-- The packets that request a Niesk port: the first of each VC, while a flit of it is there, the peer has granted its VC credit, and the
replay buffer takes a frame more (R390, R393). -/
def State.nieskRequests (s : State) (q : Nat) : List (Nat × Packet × Want) :=
  let y := s.quay q
  if y.sends && decide (y.replayUsed + nieskBytes 44 ≤ 8388608) then
    s.packets.zipIdx.filterMap fun (p, k) =>
      let first := !((s.packets.take k).any fun x => x.place == .niesk q && x.vc == p.vc)
      if p.place = .niesk q ∧ first ∧ y.npcred.get p.vc.toFin ≠ 0 ∧ (p.atNiesk.sent.getD 0) < p.here then some (k, p, p.atNiesk) else none
  else []

/-- Requests of a Niesk port whose age has reached the ageing limit promoted (R379, R382). -/
def State.nieskPromote (s : State) (q : Nat) : State :=
  (s.nieskRequests q).foldl (fun s (k, p, w) =>
    if (s.field (quayRim q).1).arba.toNat ≤ w.age ∧ w.prom.isNone then
      let y := s.quay q
      let s := s.setPacket k { p with want := [{ w with prom := some y.npout.stamp }] }
      s.setQuay q { y with npout := { y.npout with stamp := y.npout.stamp + 1 } }
    else s) s

/-- The next frame of packet `k`, as many of its flits as are there, as the credit allows and as a frame takes; it stays in the replay
buffer until it is acknowledged, and returns what credit its VC is owed (R393). -/
def State.sendFrame (s : State) (q k : Nat) (p : Packet) (w : Want) : State :=
  let y := s.quay q
  let i := w.sent.getD 0
  let c := y.npcred.get p.vc.toFin
  let n := min 44 (min c (p.here - i))
  let owed := min (y.npowed.get p.vc.toFin) 65535
  let last := i + n = p.flits
  let f : NieskTx := { dst := y.nppeer, src := Config.portMac q, etype := y.etype, fseq := y.npfseq, ack := y.npexpect - 1, vc := p.vc,
                       cred := BitVec.ofNat 16 owed, flits := (p.outgoing.toFlits.drop i).take n,
                       ends := if last then [p] else [] }
  let s := s.setQuay q { y with npreplay := y.npreplay ++ [f], npfseq := y.npfseq + 1, nptx := satInc y.nptx (nieskBytes n),
                                npcred := y.npcred.set p.vc.toNat (c - n) p.vc.isLt,
                                npowed := y.npowed.set p.vc.toNat (y.npowed.get p.vc.toFin - owed) p.vc.isLt }
  if last then s.dropPacket k else s.setPacket k { p with want := [{ port := .l, sent := some (i + n) }] }

/-- The origins of packets that a dead port cannot send told to resend them: they end with a poisoned tail (R393). -/
def State.bounce (s : State) (q : Nat) (ps : List Packet) : State := ps.foldl (fun s p => if p.bare then s else s.quayAck q p 1) s

/-- The whole packets staged for a dead port bounced. -/
def State.bounceStaged (s : State) (q : Nat) : State :=
  let gone (p : Packet) : Bool := p.place == .niesk q && p.left == 0
  ({ s with packets := s.packets.filter fun p => !gone p }).bounce q (s.packets.filter gone)

/-- One cycle of a Niesk port (R379, R382, R390): it grants as a router's port does, by the weights of its field, and sends a frame. -/
def State.nieskCycle (s : State) (q : Nat) : State :=
  if (s.quay q).npdead then s.bounceStaged q
  else
    let s := s.nieskPromote q
    let rs := s.nieskRequests q
    match s.grantOf (quayRouter q 0) (s.quay q).npout rs with
    | none => s
    | some ((k, p, w), o) =>
      let s := rs.foldl (fun s (j, x, v) => if j = k then s else s.setPacket j { x with want := [{ v with age := v.age + 1 }] }) s
      let s := s.setQuay q { s.quay q with npout := o }
      s.sendFrame q k p w

/-- R379: one cycle of an output port of a router or of a Niesk port, while it works. -/
def execPortArbitration (r : Nat) (p : Option Port) (s : State) : Host.Outcome State Fault Refusal :=
  match p with
  | some p => if s.routerLive r then finish (s.portCycle r p) else .next s
  | none => if s.booted then finish (s.nieskCycle r) else .next s

/-! ### Receiving (R394, R395) -/

/-- The local job whose JTREM list names a module and a job of it (R394). -/
def State.jobFor (s : State) (omod : BitVec 19) (job : BitVec 12) : Option (BitVec 12) :=
  (s.jobs.find? fun kj => kj.2.rems.any fun e => e.mod == omod && e.rjob == job).map fun kj => BitVec.ofNat 12 kj.1

/-- Whether a packet climbs to a summit of this module, which its own lists then name (R253, R395). -/
def Packet.needsSummit (p : Packet) : Bool :=
  (p.typ = 0 && !p.serve) || p.typ = 1 || p.typ = 2 || p.typ = 4 || (p.typ = 7 && !p.dir) || p.typ = 8

/-- The local summits to which a packet from a port climbs: one for each summit of the names of its range (R258, R263). -/
def State.summitsFor (s : State) (job : BitVec 12) (p : Packet) : List (BitVec 17) :=
  if p.typ = 1 ∨ p.typ = 2 ∨ p.typ = 4 then ((p.names).map (s.summitOf job)).eraseDups else [s.summitOf job p.name]

/-- A packet as a receiving port delivers it: GEN, JOB, RORIG and ORIG are rewritten (R394); one that climbs does so to the local
summits of its names, and a publication of a name that another module homes to its local summit, which performs it anew (R395). -/
def State.rewrite (s : State) (q : Nat) (job : BitVec 12) (p : Packet) : List Packet :=
  let put (p : Packet) : Packet :=
    let r := s.quayGate q p.dest
    { p with gen := (s.router r).gen, job, rorig := some p.orig, orig := BitVec.ofNat 17 (quayCode q), place := .router r,
             inp := (quayRim q).2 }
  let back := p.typ = 0 && (s.remoteOf job (nameTens p.name)).isSome
  if back then [put { p with dest := s.summitOf job p.name, dir := false, serve := false, dmod := s.modid }]
  else if p.needsSummit && p.dmod = s.modid then (s.summitsFor job p).map fun m => put { p with dest := m, dir := false }
  else [put p]

/-- A whole packet from a port: delivered, or counted as malformed by the port's router when no local job matches. -/
def State.deliverNiesk (s : State) (q : Nat) (p : Packet) : State :=
  match s.jobFor p.omod p.job with
  | some j => { s with packets := s.packets ++ s.rewrite q j p }
  | none => s.malformed (s.quayGate q p.dest)

/-- The whole packets among the flits received on a VC, delivered; at most `n` of them. -/
def State.deliverAll (s : State) (q : Nat) (vc : BitVec 2) : Nat → State
  | 0 => s
  | n + 1 =>
    let y := s.quay q
    match takePacket (y.npflits.get vc.toFin) with
    | some (p, rest) =>
      let s := s.setQuay q { y with npflits := y.npflits.set vc.toNat rest vc.isLt }
      (s.deliverNiesk q p).deliverAll q vc n
    | none => s

/-- The replay buffer after an acknowledgement; when it acknowledges nothing, every frame is sent again (R393; log entry 33). -/
def Quay.takeAck (y : Quay) (ack : BitVec 32) : Quay :=
  let rest := y.npreplay.filter fun (f : NieskTx) => decide (2 ^ 31 ≤ (ack - f.fseq).toNat)
  if rest.length = y.npreplay.length then y.resend else { y with npreplay := rest }

/-- R393, R394: a port receives a frame: it takes its ACK, discards a damaged one and one that is not the next, and of the next takes CRED
and delivers the packets that its flits complete. -/
def execNieskFrameReceive (q : Nat) (fr : NieskFrame) (s : State) : Host.Outcome State Fault Refusal :=
  let y := s.quay q
  let n := fr.flits.length
  if !(s.booted && y.en && !y.npdead && fr.good && fr.etype == y.etype && decide (0 < n) && decide (n ≤ 44)) then .next s
  else
    let y := { y.takeAck fr.ack with nprx := satInc y.nprx (nieskBytes n) }
    if fr.fseq ≠ y.npexpect then finish (s.setQuay q y)
    else
      let v := fr.vc
      let y := { y with npexpect := y.npexpect + 1,
                        npcred := y.npcred.set v.toNat (y.npcred.get v.toFin + fr.cred.toNat) v.isLt,
                        npowed := y.npowed.set v.toNat (y.npowed.get v.toFin + n) v.isLt,
                        npflits := y.npflits.set v.toNat (y.npflits.get v.toFin ++ fr.flits) v.isLt }
      finish ((s.setQuay q y).deliverAll q v n)

/-! ### A port's state (R392, R393) -/

/-- R393: DEADTO has passed without an acknowledgement: the port is dead, record 0x23 is posted, and the origins of the packets staged
for it and of those that its frames carried are told to resend them. -/
def execNieskPortDead (q : Nat) (s : State) : Host.Outcome State Fault Refusal :=
  let y := s.quay q
  if !(s.booted && y.en && !y.npdead && !y.npreplay.isEmpty) then .next s
  else
    let s := s.setQuay q { y with npdead := true, npup := false, npreplay := [] }
    let s := s.postOrphan { typ := 0x23, ltn := quayCode q, w4 := BitVec.ofNat 64 q } false
    finish ((s.bounce q (y.npreplay.flatMap fun f => f.ends)).bounceStaged q)

/-- R392: the port's link is up and its peer, a module, answers: frames that were not acknowledged are sent again. Without a peer the
link is lost, and UP falls. -/
def execNieskPortUp (q : Nat) (peer : Option (BitVec 19)) (s : State) : Host.Outcome State Fault Refusal :=
  let y := s.quay q
  if !(s.booted && y.en && !y.npdead) then .next s
  else match peer with
    | some m => finish (s.setQuay q { y.resend with npup := true, peer := m })
    | none => finish (s.setQuay q { y with npup := false })

end Sys2Proof.Machine
end

