-- ==== Sys2Proof/Machine/Reduce.lean ====
section
/-!
DEFINITION. Machine/Reduce.lean: the reduction nodes (R102, R103, R396 to R398).
-/
namespace Sys2Proof.Machine

/-! ### A node as origin and destination -/

/-- A packet that a reduction node injects (R396): ORIG is its code. A SUB enters by the port that is the node's local port; a publication
goes to every port that takes it. -/
def State.injectNode (s : State) (n : Nat) (job : BitVec 12) (p : Packet) (keep : Bool) : State × Packet :=
  let y := s.node n
  let r := n / 8
  let port := Port.ofNum (n % 8)
  let p := { p with job, gen := (s.router r).gen, orig := BitVec.ofNat 17 (nodeCode n), omod := s.modid, oseq := y.oseq,
                    node := some port, place := .router r, inp := if p.typ = 0 then .l else port, want := [], routed := false, detour := false,
                    path := [], left := 0 }
  let st : Staged := { pkt := p, resends := 0, who := noIssuer, inc := (s.job job.toNat).inc }
  ({ s.setNode n { y with oseq := y.oseq + 1, egress := if keep then y.egress ++ [st] else y.egress } with
       packets := s.packets ++ [p] }, p)

/-- An ACK from a node (R266). -/
def State.nodeAck (s : State) (n : Nat) (p : Packet) (status : BitVec 4) : State :=
  (s.injectNode n p.job { typ := 12, vc := 0, dest := p.orig, dmod := p.omod, rorig := p.rorig, aux := p.oseq, status,
                          name := p.name } false).1

/-! ### Order (R103, R397) -/

/-- Whether a partial belongs to a group: an iteration and a module. -/
def Partial.inGroup (x : Partial) (iter : Nat) (mod : BitVec 19) : Bool := (tagIter x.tag).toNat == iter && x.omod == mod

/-- A partial put in ascending order of origin LTN. -/
def insertByLtn (x : Partial) : List Partial → List Partial
  | [] => [x]
  | y :: ys => if x.ltn.toNat < y.ltn.toNat then x :: y :: ys else y :: insertByLtn x ys

/-- The partials that may be added, in their order: group after group of iteration and module, each by LTN once it is whole; at most
`n` groups from group `g` on (R397). -/
def Reduction.ready (x : Reduction) (parts : List Partial) : Nat → Nat → List Partial
  | 0, _ => []
  | n + 1, g =>
    let m := x.mlist.length
    if m = 0 ∨ x.iter1.toNat < x.iter0.toNat + g / m then []
    else
      let these := parts.filter fun p => p.inGroup (x.iter0.toNat + g / m) (x.mlist.getD (g % m) 0)
      if these.length < x.nper.toNat then []
      else these.foldl (fun l p => insertByLtn p l) [] ++ x.ready parts n (g + 1)

/-- The partials of one name. -/
def Reduction.of (x : Reduction) (n : Word) : List Partial := x.parts.filter fun p => p.name == n

/-- The number of partials of a whole set. -/
def Reduction.expected (x : Reduction) : Nat := (x.iter1.toNat + 1 - x.iter0.toNat) * x.mlist.length * x.nper.toNat

/-! ### Sums (R102, R103) -/

/-- Element `i` of `w` bytes of a payload. -/
def payloadElem (p : Partial) (w i : Nat) : Nat := leNat (((payloadBytes p.payload).drop (w * i)).take w)

/-- One element's sum in FP32, a partial at a time, with its flags. -/
def sumFloat (wide : Nat → Nat) : List Nat → Nat × FFlags
  | [] => (0, 0)
  | a :: rest => rest.foldl (fun (z : Nat × FFlags) b =>
      let (r, fl) := faddOp fp32 false z.1 (wide b)
      (r, z.2 ||| fl)) (wide a, 0)

/-- A result that is a NaN in canonical form (R103). -/
def canonical32 (x : Nat) : Nat := if (fp32.decode false x).isNan then fp32.nanBits else x

/-- The result of a floating reduction: its bytes and flags. A BF16 partial widens exactly; its result is rounded once (R103). -/
def Reduction.floatResult (x : Reduction) (parts : List Partial) : List Byte × FFlags :=
  let w := if x.typ = 0 then 2 else 4
  let n := match parts with
    | p :: _ => 32 * p.payload.length / w
    | [] => 0
  let one (i : Nat) : Nat × FFlags :=
    let (z, fl) := sumFloat (fun b => if x.typ = 0 then b * 65536 else b) (parts.map fun p => payloadElem p w i)
    if x.typ = 0 then
      let (r, f2) := fcvtOp fp32 bf16 false z
      (r, fl ||| f2)
    else (canonical32 z, fl)
  let rs := (List.range n).map one
  (rs.flatMap fun r => leBytes w r.1, rs.foldl (fun fl r => fl ||| r.2) 0)

/-- The header of packed block `b` of a partial (R93). -/
def partialHdr (p : Partial) (b : Nat) : Nat := payloadElem p 8 (8 * b) % 65536

/-- A contribution in units of the LSB, truncated toward zero (R94, R102); a malformed header contributes nothing (DESIGN CHOICE, log
entry 61). -/
def contribution (j emax : Nat) (p : Partial) (b e : Nat) : Int :=
  if hdrFault (partialHdr p b) true false then 0
  else match planeValue (partialHdr p b) (fun k => (payloadElem p 8 (8 * b + 1 + k)).testBit e) j false with
  | .fin neg m x =>
    let k : Int := x - ((emax : Int) - 127 - 39)
    signed neg (if 0 ≤ k then m * 2 ^ k.toNat else m / 2 ^ (-k).toNat)
  | _ => 0

/-- The result of a bit-plane reduction: for each block a header with Emax and the 64 sums; and whether a sum saturated (R102,
R397). Emax is taken over the well-formed contributions with ZB = 0, and is 0 without one (DESIGN CHOICE, log entry 61). -/
def Reduction.planeResult (x : Reduction) (parts : List Partial) : List Byte × Bool :=
  let n := match parts with
    | p :: _ => p.payload.length / 2
    | [] => 0
  let block (b : Nat) : List Byte × Bool :=
    let emax := parts.foldl (fun a p => if hdrZb (partialHdr p b) || hdrFault (partialHdr p b) true false then a else max a (hdrExp (partialHdr p b))) 0
    let sums := (List.range 64).map fun e => (parts.map fun p => contribution x.planes.toNat emax p b e).sum
    (leBytes 32 emax ++ sums.flatMap (fun v => leBytes 8 (intResult 64 false true v)),
     sums.any fun v => clampInt 64 false v != v)
  let rs := (List.range n).map block
  (rs.flatMap fun r => r.1, rs.any fun r => r.2)

/-! ### Taking a partial (R397, R398) -/

/-- The status of a reduction as its 16 bytes (R398). -/
def Reduction.statBytes (x : Reduction) : List Byte :=
  leBytes 8 (x.nres.toNat * 2 ^ 32 + b2n (x.nres != 0) * 2 ^ 8 + b2n x.extra * 2 ^ 7 + b2n x.badlen * 2 ^ 6
    + b2n x.ovf * 2 ^ 5 + x.flags.toNat) ++ leBytes 8 x.npart.toNat

/-- A whole set summed and published, the status written, and the name's next collection begun (R397, R398). -/
def State.publishSum (s : State) (i : Nat) (x : Reduction) (n : Word) : State :=
  let parts := x.ready (x.of n) (x.expected + 1) 0
  let (bs, fl, ovf) :=
    if x.typ = 2 then
      let (bs, o) := x.planeResult parts
      (bs, (0 : FFlags), o)
    else
      let (bs, fl) := x.floatResult parts
      (bs, fl, false)
  let x := { x with parts := x.parts.filter fun p => p.name != n, nres := x.nres + 1, ovf := x.ovf || ovf,
                    flags := x.flags ||| fl.setWidth 5 }
  let s := { s with reductions := s.reductions.set i x }
  let (r, port) := if x.kind = 0 then (x.ltn.toNat, Port.ofNum x.dir.toNat)
    else (quayRouter x.port.toNat 0, (quayRim x.port.toNat).2)
  let out := mkName x.oten (nameRow n) (nameCol n)
  let p := { s.mkPub x.job out (x.ctx ++ x.iter1) (flitsOf (bs.length / 32) bs) with node := some port }
  ((s.injectNode (nodeId r port) x.job p true).1).unitWrite (nodeCode (nodeId r port)) x.stat x.statBytes

/-- One reduction's work on a partial of one of its names. -/
def State.takePartial (s : State) (i : Nat) (p : Packet) : State :=
  match s.reductions[i]? with
  | none => s
  | some x =>
    let have_ := x.of p.name
    let ltn := p.rorig.getD p.orig
    let it := (tagIter p.tag).toNat
    let group := have_.filter fun q => q.inGroup it p.omod
    if tagCtx p.tag ≠ x.ctx ∨ it < x.iter0.toNat ∨ x.iter1.toNat < it ∨ !x.mlist.contains p.omod then
      { s with reductions := s.reductions.set i { x with extra := true } }
    else if group.any fun q => q.ltn == ltn then s
    else if x.nper.toNat ≤ group.length then { s with reductions := s.reductions.set i { x with extra := true } }
    else if have_.any fun q => q.payload.length != p.payload.length then
      { s with reductions := s.reductions.set i { x with badlen := true } }
    else
      let new : Partial := { name := p.name, tag := p.tag, omod := p.omod, ltn, payload := p.payload }
      let x := { x with parts := x.parts ++ [new], npart := x.npart + 1 }
      let s := { s with reductions := s.reductions.set i x }
      if (x.of p.name).length = x.expected then s.publishSum i x p.name else s

/-- Bytes of out-of-order partials that a reduction holds. -/
def Reduction.buffered (x : Reduction) : Nat :=
  if x.typ = 2 then 0
  else
    let names := (x.parts.map fun p => p.name).eraseDups
    (names.map fun n =>
      ((x.of n).map fun p => 32 * p.payload.length).sum
        - ((x.ready (x.of n) (x.parts.length + 1) 0).map fun p => 32 * p.payload.length).sum).sum

/-- The reductions at a node, by their places in the list. -/
def State.reductionsOf (s : State) (n : Nat) : List (Nat × Reduction) :=
  s.reductions.zipIdx.filterMap fun (x, i) => if x.standsAt (n / 8) (Port.ofNum (n % 8)) then some (i, x) else none

/-- Whether a node's buffer of 256 KiB has room for a partial (R396). -/
def State.nodeRoom (s : State) (n : Nat) (p : Packet) : Bool :=
  decide (((s.reductionsOf n).map fun ix => ix.2.buffered).sum + 32 * p.payload.length ≤ 262144)

/-- R397: a packet reaches a reduction node. A publication is a partial of the reductions that it names; an answer frees the copy of
the node's subscription; anything else is only acknowledged. -/
def execPartialArrival (k : Nat) (s : State) : Host.Outcome State Fault Refusal :=
  match s.packets[k]? with
  | none => .next s
  | some p =>
    match p.place with
    | .node n =>
      if p.mt.isSome ∨ p.left ≠ 0 ∨ p.typ = 11 ∨ p.typ = 12 ∨ (p.typ = 0 ∧ !s.nodeRoom n p) then .next s
      else
        let s := s.dropPacket k
        let uni := p.typ != 0 || p.serve
        if p.corrupt || p.poison then finish (if p.poison && !p.bare then s.nodeAck n p 1 else s)
        else
          let s := if uni && !p.bare then s.nodeAck n p 0 else s
          let y := s.node n
          if p.typ = 3 then finish (s.setNode n { y with egress := y.egress.filter fun e => e.pkt.oseq != p.aux })
          else if p.typ ≠ 0 ∨ y.seen.contains p.ident then finish s
          else
            let s := s.setNode n { y with seen := p.ident :: y.seen }
            finish (((s.reductionsOf n).filter fun ix => ix.2.takes p.job p.name).foldl (fun s ix => s.takePartial ix.1 p) s)
    | _ => .next s

end Sys2Proof.Machine
end

