-- ==== Sys2Proof/Machine/Home.lean ====
section
/-!
DEFINITION. Machine/Home.lean: requests at a quay and accesses performed at a home (R278, R281, R297, R307 to R309), translation beyond the tile (R312,
R313, R317), barriers at their home and the notices of their completion (R219 to R221, R294), and reply notices (R361).
-/
namespace Sys2Proof.Machine

/-! ### Requests at a quay (R308, R309, R382) -/

/-- Packet `k`, a whole memory transaction that has come to a quay. -/
def State.memAtQuay (s : State) (k : Nat) : Option (Nat × Packet × MemTx) :=
  match s.packets[k]? with
  | some p => match p.place, p.mt with
    | .quay q, some m => if p.left = 0 then some (q, p, m) else none
    | _, _ => none
  | none => none

/-- The sectors that a request at a home names: the first, and one past the last. -/
def MemTx.span (m : MemTx) : Nat × Nat := (m.key / 32, m.key / 32 + (if m.mkind = 0 then m.n else 1))

/-- Whether two requests reach a common sector. -/
def MemTx.meets (a b : MemTx) : Bool :=
  a.mkind != 6 && b.mkind != 6 && decide (a.span.1 < b.span.2) && decide (b.span.1 < a.span.2)

/-- How many requests a request has seen its quay perform before it. -/
def Packet.waited (p : Packet) : Nat := match p.want.head? with
  | some w => w.age
  | none => 0

/-- Whether a quay may perform request `k` (R308, R382): it is the first for its sectors, and no request of its quay that is the first for
its own has a higher priority, unless this one has waited for as many requests of the quay as the ageing limit says. -/
def State.mayServe (s : State) (k q : Nat) (p : Packet) (m : MemTx) : Bool :=
  let others := (List.range s.packets.length).filterMap fun i => match s.memAtQuay i with
    | some (r, x, n) => if r = q then some (i, x, n) else none
    | none => none
  let first (i : Nat) (n : MemTx) : Bool := !others.any fun o => decide (o.1 < i) && o.2.2.meets n
  let rank (x : Packet) : Nat := if (s.field (quayRim q).1).arba.toNat ≤ x.waited then 4 else s.prio x.job
  first k m && !others.any fun o => first o.1 o.2.2 && (decide (rank p < rank o.2.1) || (rank o.2.1 == 4 && decide (o.1 < k)))

/-- Request `k` of a quay taken from its queue; the others there have waited for one more. -/
def State.takeRequest (s : State) (k q : Nat) : State :=
  { s with packets := (s.packets.eraseIdx k).map fun p =>
      if p.place = .quay q ∧ p.mt.isSome then { p with want := [{ port := .l, age := p.waited + 1 }] } else p }

/-- A request performed at its home, and answered (R281, R307 to R309). -/
def State.serveHome (s : State) (q : Nat) (p : Packet) (m : MemTx) : State :=
  let a : Asker := { ltn := p.orig.toNat, job := p.job }
  let reply (s : State) (r : MemTx) (pl : List (BitVec 256)) : State := s.sendQuay q p.orig p.job p.vc { r with tid := m.tid } pl
  if m.mkind = 0 then
    let (s, ds) := m.sectors.foldl (fun (x : State × List (BitVec 256)) sec =>
      let (s, d) := x.1.homeRead a m.so m.mside sec
      (s, x.2 ++ [d])) (s, [])
    reply s { mkind := 1, tid := 0, key := m.key, n := m.n, so := m.so, mside := m.mside, un := m.un, locks := m.sectors.map s.lockAt } ds
  else if m.mkind = 2 then
    reply (s.homeWrite a m.so m.mside (m.key / 32) m.mask (p.payload.headD 0)) { mkind := 3, tid := 0 } []
  else match m.verb with
    | .rmw op b c =>
      let (s, old) := s.homeRmw a m.mside op m.key m.n b c
      reply s { mkind := 5, tid := 0, value := BitVec.ofNat 64 old } []
    | .writeLock l => reply (s.setLock a m.key l) { mkind := 5, tid := 0 } []
    | _ => reply (s.llcTouch a (m.key / 32) none) { mkind := 5, tid := 0, value := (s.lockAt (m.key / 32)).setWidth 64 } []

/-- Whether a request goes to the base-die ALU of a channel: one of a memory-side page of the HBM4E tier (R309). -/
def MemTx.baseDie (m : MemTx) : Bool := m.mside && decide (m.key < 2 ^ 41)

/-! ### Filhus cores and other modules (R278, R297, R417) -/

/-- Whether a physical address lies in the window of a PCIe port (R417). -/
def inPcie (pa : Nat) : Bool := decide (0x60000000000 ≤ pa) && decide (pa < 0x60000000000 + 2 ^ 40)

/-- A unit that no field is charged for. -/
def unitAsker : Asker := { ltn := 0, job := 0, unit := true }

/-- A Filhus core's access to `n` bytes of memory (R297, R417): `f` on a memory tier, at its home, where a PCIe window answers with a free
value, and an error response elsewhere. -/
def State.filhusAt (s : State) (pa n : Nat) (write : Bool) (f : State → State) : Host.Outcome State Fault Refusal :=
  if !s.booted then .next s
  else if populatedRun pa n then finish (f (s.llcRun unitAsker pa n write))
  else if inPcie pa then
    finish { s with fresh := s.fresh + 1, resp := if write then .ok else .value (Config.pcieAnswer s.fresh) }
  else finish { s with resp := .error }

/-- Bytes that a unit other than a tile writes at a home, with the writer's class and number (R363). -/
def State.unitPut (s : State) (cls who pa : Nat) (bs : List Byte) : State := (s.putBytes pa bs).watchHome 0 cls who pa bs.length

/-- The old and the new bytes of an AMO of a unit other than a tile (R143). -/
def State.unitAmo (s : State) (op : AmoOp) (n pa : Nat) (b c : Word) : Nat × List Byte :=
  let old := leNat (s.pbytes pa n)
  (old, leBytes n (rmwNew op n old (b.toNat % 2 ^ (8 * n)) (c.toNat % 2 ^ (8 * n))))

/-- R297, R307, R308: an access goes on at its tile, at a slice or at its home; a sector is evicted to the next level; or a Filhus core's or
another module's access is performed at its home: since these act there in the order in which they come, a fence of a Filhus core has
nothing left to order. -/
def execHomeAccess (a : HomeAct) (s : State) : Host.Outcome State Fault Refusal :=
  match a with
  | .start t k => if s.tileLive t then finish (s.advanceOp t k) else .next s
  | .burst t q => if s.enginesRun t then finish (s.burstAhead t (Queue.num q)) else .next s
  | .slice k =>
    match s.memAtTile k with
    | some (u, p, m) => if m.mkind = 0 ∨ m.mkind = 2 then finish ((s.dropPacket k).serveSlice u p m) else .next s
    | none => .next s
  | .queued k =>
    match s.memAtQuay k with
    | some (q, p, m) =>
      if !m.baseDie && m.mkind.toNat < 6 && s.mayServe k q p m then finish ((s.takeRequest k q).serveHome q p m) else .next s
    | none => .next s
  | .evictTile t k =>
    let x := s.tile t
    match x.tdc[k]? with
    | some c =>
      if s.tileLive t && !(c.dirty != 0 && x.leaves c.key) then finish ((s.setTile t { x with tdc := x.tdc.eraseIdx k }).sendBack t c)
      else .next s
    | none => .next s
  | .evictSpur sp k =>
    let y := s.spur sp
    match y.sectors[k]? with
    | some c =>
      let u := sliceTile sp c.key
      if s.sliceLive u && !(c.dirty != 0 && y.leaves c.key) then
        finish ((s.setSpur sp { y with sectors := y.sectors.eraseIdx k }).sliceBack u c)
      else .next s
    | none => .next s
  | .filhus pa bytes => s.filhusAt pa bytes.length true fun s => { s.unitPut 6 0 pa bytes with resp := .ok }
  | .filhusLoad pa n => s.filhusAt pa n false fun s => { s with resp := .value (BitVec.ofNat 64 (leNat (s.pbytes pa n))) }
  | .filhusAmo op wd pa b c =>
    s.filhusAt pa wd.bytes true fun s =>
      let (old, new) := s.unitAmo op wd.bytes pa b c
      { s.unitPut 6 0 pa new with resp := .value (BitVec.ofNat 64 old) }
  | .filhusFence => if s.booted then finish s else .next s
  | .moduleLoad pa n => if s.booted && populatedRun pa n then finish (s.llcRun unitAsker pa n false) else .next s
  | .moduleWrite m pa bytes =>
    if s.booted && populatedRun pa bytes.length then
      finish ((s.llcRun unitAsker pa bytes.length true).unitPut 7 m.toNat pa bytes)
    else .next s
  | .moduleAmo m op wd pa b c =>
    if s.booted && populatedRun pa wd.bytes then
      finish ((s.llcRun unitAsker pa wd.bytes true).unitPut 7 m.toNat pa (s.unitAmo op wd.bytes pa b c).2)
    else .next s
  | .farWrite key bytes => if s.booted && remoteKey key then finish (s.putBytes key bytes) else .next s

/-- R309: the base-die ALU of a channel performs a queued operation on a memory-side page. -/
def execBaseDieAlu (k : Nat) (s : State) : Host.Outcome State Fault Refusal :=
  match s.memAtQuay k with
  | some (q, p, m) =>
    if m.baseDie && m.mkind.toNat < 6 && s.mayServe k q p m then finish ((s.takeRequest k q).serveHome q p m) else .next s
  | none => .next s

/-! ### Translation (R312, R313, R317) -/

/-- PIN of a leaf entry. -/
def leafPin (e : Word) : Bool := wbit e 9

/-- A translation put in a spur translation cache of 2,048 entries in sets of 8 (R312); the set of a page is its number modulo 256,
and the oldest entry that is not pinned is replaced (log entry 9). -/
def Spur.tcPut (y : Spur) (e : TlbEnt) : Spur :=
  let rest := y.tc.filter fun z => !(z.job == e.job && z.page == e.page && z.bits == e.bits)
  let set := rest.filter fun z => z.page % 256 == e.page % 256
  if set.length < 8 then { y with tc := e :: rest }
  else
    let victim := match (set.filter fun z => !leafPin z.leaf).getLast? with
      | some z => some z
      | none => set.getLast?
    match victim with
    | some v => { y with tc := e :: rest.erase v }
    | none => { y with tc := e :: rest }

/-- The quay whose walkers serve an address (R312). -/
def walkerQuay (va : Nat) : Nat := bits va 25 21 ^^^ bits va 30 26

/-- A miss at a quay: it joins a walk of its region, takes a free walker, or queues (R313). -/
def Quay.addMiss (y : Quay) (t : Nat) (tid : BitVec 20) (m : XMiss) : Quay :=
  let region := m.vpage / 32
  let joins (w : Walk) : Bool := w.job == m.job && w.region == region && (!w.held || m.write)
  match y.walks.findIdx? joins with
  | some i => { y with walks := y.walks.modify i fun w => { w with joined := w.joined ++ [(t, tid, m)] } }
  | none =>
    if y.walks.length < 32 then { y with walks := y.walks ++ [{ job := m.job, region, joined := [(t, tid, m)], held := false }] }
    else { y with walkQ := y.walkQ ++ [(t, tid, m)] }

/-- A miss that its tile takes to the spur translation cache: it is answered there, or sent to its walker quay (R312). -/
def State.askWalk (s : State) (t k : Nat) : State :=
  let x := s.tile t
  match x.misses[k]? with
  | none => s
  | some z =>
    if z.tid.isSome then s
    else
      let va := z.m.vpage * 65536
      match (s.spur (spurOf t)).tc.find? fun e => e.covers z.m.job va && !(z.m.write && leafMig e.leaf) with
      | some e => s.setTile t ({ x with misses := x.misses.eraseIdx k }.tlbPut e)
      | none =>
        let (s, tid) := s.takeTid t
        let x := s.tile t
        (s.setTile t { x with misses := x.misses.set k { z with tid := some tid } }).sendMem t
          (BitVec.ofNat 17 (quayCode (walkerQuay va))) z.m.job 0 { mkind := 6, tid, verb := .walk z.m } []

/-- R312, R313: a tile's translation miss asks the spur translation cache, or has reached its walker quay. -/
def execWalkRequest (a : WalkAct) (k : Nat) (s : State) : Host.Outcome State Fault Refusal :=
  match a with
  | .ask t => if s.tileLive t then finish (s.askWalk t k) else .next s
  | .join =>
    match s.memAtQuay k with
    | some (q, p, m) => match m.verb with
      | .walk z =>
        if s.mayServe k q p m then
          let s := s.takeRequest k q
          finish (s.setQuay q ((s.quay q).addMiss p.orig.toNat m.tid z))
        else .next s
      | _ => .next s
    | none => .next s

/-- The addresses of the table entries that a walk reads, `n` levels being left. -/
def State.walkTables (s : State) (va : Nat) : Nat → Nat → Nat → List Nat
  | 0, _, _ => []
  | n + 1, level, table =>
    let pa := table + 8 * walkIndex level va
    let e := s.pw pa
    if !populatedRun pa 8 then []
    else if !wbit e 0 || wbit e 1 || tableReserved e level || level = 4 then [pa]
    else pa :: s.walkTables va n (level + 1) (wbits e 43 8 * 256)

/-- The answer of a quay to one miss of a walk: its table entries are read at their homes, and the translation, or that there is none, goes to
the tile; a miss that needs W on a page in migration is not answered (R313, R317). -/
def State.answerMiss (s : State) (q t : Nat) (tid : BitVec 20) (m : XMiss) : State × Bool :=
  let va := m.vpage * 65536
  let a : Asker := { ltn := t, job := m.job }
  let s := (s.walkTables va 5 0 (s.job m.job.toNat).ptroot.toNat).foldl (fun s pa => s.llcRun a pa 8 false) s
  let reply (s : State) (e : Option TlbEnt) : State :=
    s.sendQuay q (BitVec.ofNat 17 t) m.job 0 { mkind := 7, tid, verb := .found e } []
  match s.walk m.job.toNat va with
  | .leaf e b =>
    if m.write && leafMig e then (s, false)
    else
      let ent : TlbEnt := { job := m.job, page := va / 2 ^ b, bits := b, leaf := e }
      (reply (s.setSpur (spurOf t) ((s.spur (spurOf t)).tcPut ent)) (some ent), true)
  | .fault _ _ => (reply s none, true)
  | .hole pa => ({ s with stuck := some pa }, true)

/-- The misses of a walk answered, and those that wait for MIG. -/
def State.answerAll (s : State) (q : Nat) : List (Nat × BitVec 20 × XMiss) → State × List (Nat × BitVec 20 × XMiss)
  | [] => (s, [])
  | (t, tid, m) :: r =>
    let (s, ok) := s.answerMiss q t tid m
    let (s, l) := s.answerAll q r
    (s, if ok then l else (t, tid, m) :: l)

/-- The misses that queue at a quay given to the walkers that are free. -/
def Quay.pull (y : Quay) : Quay :=
  y.walkQ.foldl (fun (y : Quay) z => y.addMiss z.1 z.2.1 z.2.2) { y with walkQ := [] }

/-- Walk `k` of a quay answered: what waits for MIG stays as a held walk. -/
def State.answerWalk (s : State) (q k : Nat) (w : Walk) : State :=
  let y := s.quay q
  let s := s.setQuay q { y with walks := y.walks.eraseIdx k }
  let (s, wait) := s.answerAll q w.joined
  let y := s.quay q
  let y := if wait.isEmpty then y else { y with walks := y.walks ++ [{ w with joined := wait, held := true }] }
  s.setQuay q y.pull

/-- R313: a walk ends and answers every miss that joined it. -/
def execWalkDone (q k : Nat) (s : State) : Host.Outcome State Fault Refusal :=
  match (s.quay q).walks[k]? with
  | some w => if w.held then .next s else finish (s.answerWalk q k w)
  | none => .next s

/-- R317: a quay re-reads the leaf entry of a walk that is held for MIG. -/
def execMigRecheck (q k : Nat) (s : State) : Host.Outcome State Fault Refusal :=
  match (s.quay q).walks[k]? with
  | some w => if w.held then finish (s.answerWalk q k w) else .next s
  | none => .next s

/-! ### Barriers (R219 to R221, R294) -/

/-- Whether a berth still holds a binding, bound or saved. -/
def Berth.holds (y : Berth) (bind : Nat) : Bool := y.bind == bind && y.status != .free && y.status != .ending

/-- The 16 bytes of a barrier object at its home, as a number. -/
def State.barrierObject (s : State) (a : Arrival) : State × Nat :=
  if a.win then (s, leNat ((s.tile a.t).padBytes a.pa 16))
  else
    let (s, bs) := s.homeBytes (s.asker a.t) a.pa 16
    (s, leNat bs)

/-- The object's GEN and ARRIVED written at its home. -/
def State.setBarrier (s : State) (a : Arrival) (gen arrived expected : Nat) : State :=
  let bs := leBytes 16 (0xBA550001 + gen % 2 ^ 32 * 2 ^ 32 + expected * 2 ^ 64 + arrived * 2 ^ 96)
  if a.win then s.setTile a.t ((s.tile a.t).deviceWrite a.pa bs) else s.homePut (s.asker a.t) a.pa bs

/-- The tile after the home has reported an arrival: one ARRIVE fewer is outstanding, and a counted one is in the pending-barrier words,
in the save area while the binding is saved (R221, R352). -/
def Tile.noteArrival (x : Tile) (a : Arrival) (counted : Bool) : Tile :=
  let y := x.berths[a.b]
  if !y.holds a.bind then x
  else
    let y' := { y with arrives := y.arrives - 1, barrier := if counted then some (a.addr.setWidth 56, a.cap) else y.barrier }
    let x := x.setBerth a.b y'
    if y.status = .trapped ∨ y.status = .held then
      let p := saveBase x a.b.val
      let w := x.padWord (p + 0x2B0)
      let n := wbits w 3 1 - 1
      let x := x.deviceWrite (p + 0x2B0) (leBytes 8 (wbits w 63 4 * 16 + n * 2 + wbits w 0 0))
      if counted then
        x.deviceWrite (p + 0x3E0) (leBytes 8 ((a.addr.setWidth 56).toNat + 2 ^ 63) ++ leBytes 8 a.cap.toNat)
      else x
    else x

/-! ### A tile and its gate save block (R221, R367) -/

/-- What a tile holds, in its gate save block while it has one. -/
def State.kept (s : State) (t : Nat) : Tile :=
  match (s.jobOf t).blocks.find? fun q => q.tile.toNat == t with
  | some q => q.saved
  | none => s.tile t

/-- The physical address of a tile's save block (R369). -/
def State.blockAddr (s : State) (j t : Nat) : Nat :=
  (s.job j).save.toNat + 0x50000 * ((s.tilesOf j).findIdx fun u => u == t)

/-- The place of a berth's area in a save block (R369). -/
def blockOffset (b : Fin 5) : Nat := 0xB000 + 0x4400 * b.val

/-- The bytes of berth `b`'s area of the block: those of its save area in the scratchpad once it is saved there; a trapped berth's z tiles and
handles stayed live in it (R353, R369). -/
def Tile.blockBerth (x : Tile) (b : Fin 5) : List Byte :=
  let y := x.berths[b]
  let a := x.padBytes (saveBase x b.val) 0x4400
  match y.status with
  | .trapped => a.take 0xC00 ++ ((saveBytes y).drop 0xC00).take 0x2400 ++ a.drop 0x3000
  | .held => a
  | _ => saveBytes y

/-- The tile with berth `b` as the bytes of its area of a block hold it (R369, R370). -/
def Tile.takeBerth (x : Tile) (b : Fin 5) (bs : List Byte) : Tile :=
  let y := x.berths[b]
  let z := readSaved (({} : Tile).setPadBytes 0 bs) 0 y true
  match y.status with
  | .free => x
  | .trapped => (x.deviceWrite (saveBase x b.val) bs).setBerth b { y with z := z.z, handles := z.handles }
  | .held => x.deviceWrite (saveBase x b.val) bs
  | _ => x.setBerth b { z with trap := y.trap, after := y.after }

/-- A change made to a tile for one of its berths, and to its gate save block while it has one: there the words that a notice changes, the
wait latch with the outstanding ARRIVEs and the pending barrier (R221, R352, R367). -/
def State.onTile (s : State) (t : Nat) (b : Fin 5) (f : Tile → Tile) : State :=
  let x := s.tile t
  let j := s.job x.job.toNat
  let s := if x.powered then s.setTile t (f x) else s
  match j.blocks.find? fun q => q.tile.toNat == t with
  | none => s
  | some q =>
    let a := s.blockAddr x.job.toNat t + blockOffset b
    let y := f (q.saved.takeBerth b (s.pbytes a 0x4400))
    let bs := y.blockBerth b
    let s := s.setJob x.job.toNat { j with blocks := j.blocks.map fun q => if q.tile.toNat = t then { q with saved := y } else q }
    (s.pwrite (a + 0x2B0) ((bs.drop 0x2B0).take 8)).pwrite (a + 0x3E0) ((bs.drop 0x3E0).take 32)

/-- A stale-barrier fault: pending on the berth while it holds the binding, else record 0x12 (R220, R362). -/
def State.raiseBarrier (s : State) (a : Arrival) : State :=
  if ((s.kept a.t).berths[a.b]).holds a.bind then
    s.onTile a.t a.b fun x =>
      let y := x.berths[a.b]
      x.setBerth a.b { y with faults := y.faults ++ [mkTrap 0x0A 0 a.addr (a.cap.setWidth 64) 0] }
  else
    s.postCaptured a.job.toNat a.inc
      { typ := 0x12, berth := a.b.val, ltn := a.t, inc := a.inc, job := a.job, frame := a.frame, tidx := a.tidx, tag := a.tag,
        w4 := a.addr, w5 := a.cap.setWidth 64 }

/-- The wait latch of a berth set. -/
def State.wakeAt (s : State) (t : Nat) (b : Fin 5) : State := s.onTile t b fun x => x.wake b

/-- R220: an ARRIVE is performed at its barrier's home; the arrival that completes the generation sends the notices. -/
def execArriveAtHome (k : Nat) (s : State) : Host.Outcome State Fault Refusal :=
  match s.arrivals[k]? with
  | none => .next s
  | some a =>
    let s := { s with arrivals := s.arrivals.eraseIdx k }
    let (s, o) := s.barrierObject a
    let magic := o % 2 ^ 32
    let gen := bits o 63 32
    let expected := bits o 95 64
    let arrived := bits o 127 96
    if magic ≠ 0xBA550001 ∨ gen ≠ a.cap.toNat ∨ expected = 0 then
      finish ((s.onTile a.t a.b fun x => x.noteArrival a false).raiseBarrier a)
    else
      let s := s.onTile a.t a.b fun x => x.noteArrival a true
      let w : Waiter := { t := a.t, b := a.b, bind := a.bind, addr := a.addr, win := a.win, pa := a.pa, cap := a.cap }
      let s := { s with waiters := s.waiters ++ [w] }
      if (arrived + 1) % 2 ^ 32 = expected then
        let mine (w : Waiter) : Bool := w.win == a.win && w.pa == a.pa && w.cap == a.cap && (!a.win || w.t == a.t)
        let s := s.setBarrier a (gen + 1) 0 expected
        finish { s with waiters := s.waiters.filter fun w => !mine w, notices := s.notices ++ s.waiters.filter mine }
      else finish (s.setBarrier a gen ((arrived + 1) % 2 ^ 32) expected)

/-- R221, R294: a completion reaches the berth that still holds the binding whose arrival was counted: its wait latch is set, and its tile
performs the binding's acquire, saved or not. -/
def execBarrierNoticeArrival (k : Nat) (s : State) : Host.Outcome State Fault Refusal :=
  match s.notices[k]? with
  | none => .next s
  | some w =>
    let s := { s with notices := s.notices.eraseIdx k }
    let y := (s.kept w.t).berths[w.b]
    if !y.holds w.bind then finish s
    else
      let s := s.wakeAt w.t w.b
      finish (s.acquire w.t w.b (if w.win then .tile else .sys))

/-- R221, R361: a reply notice sets the wait latch of the berth that it names. -/
def execReplyNoticeArrival (k : Nat) (s : State) : Host.Outcome State Fault Refusal :=
  match s.replies[k]? with
  | none => .next s
  | some r =>
    let s := { s with replies := s.replies.eraseIdx k }
    if h : r.b.toNat < 5 then finish (s.wakeAt r.t ⟨r.b.toNat, h⟩) else finish s

end Sys2Proof.Machine
end

