-- ==== Sys2Proof/Machine/Clock.lean ====
section
/-!
DEFINITION. Machine/Clock.lean: the wafer tick generator (R326, R327), events and claim answers at their tiles (R330, R333, R340,
R341), tile faults (R364), corrected errors (R365) and the loss of a tile's power (R372).
-/
namespace Sys2Proof.Machine

/-! ### Ticks (R326, R327) -/

/-- A tile's bank after an increment of TKCNT: T follows it when SRC is 1, except in a GATE and in a precise stop (R327, R367, R405). -/
def Tile.tick (x : Tile) : Tile :=
  if x.powered && x.bank.src && x.gate == .idle && !x.stopped then { x with bank := x.bank.advance (x.bank.t + 1) } else x

/-- R326: the tick generator increments TKCNT; a new PER takes effect with the interval that begins. -/
def execTick (s : State) : Host.Outcome State Fault Refusal :=
  if s.booted then
    finish { s with tkcnt := s.tkcnt + 1, per := s.perNext, tiles := s.tiles.map fun kx => (kx.1, kx.2.tick) }
  else .next s

/-! ### Events (R330, R333) -/

/-- Whether a packet is the answer to a claim (R340). -/
def Packet.isAnswer (p : Packet) : Bool := nameTens p.name == 0xFFFFFF

/-- R330: an EVENT packet reaches its bank; one that finds its share of the queue full waits (R333). -/
def execEventArrival (k : Nat) (s : State) : Host.Outcome State Fault Refusal :=
  match s.ingressPacket k with
  | none => .next s
  | some (_, p) =>
    if p.isAnswer then .next s
    else match s.takeUnicast k 9 with
      | none => .next s
      | some (s', none) => finish s'
      | some (s', some (t, p)) =>
        let post : Post := { pop := nameTens p.name, neuron := nameCol p.name, ts := p.tag, w := p.aux,
                             ltn := p.rorig.getD p.orig, seq := p.oseq, own := false }
        match s'.receiveEvent t post with
        | (s', true) => finish s'
        | (_, false) => .next s

/-- R333: the bank of a tile applies the queued event with the least key among those that are due. -/
def execEventApply (t : Nat) (s : State) : Host.Outcome State Fault Refusal :=
  if s.framesRun t then
    match s.applyEvent t with
    | some s => finish s
    | none => .next s
  else .next s

/-- A byte that an ingress engine writes for a claim, through the linear view (R340). -/
def State.claimByte (s : State) (t : Nat) (w : BitVec 32) (b : Byte) : State :=
  s.portWrite t .claim 2 t .linear (w.extractLsb' 0 19).toNat [b]

/-- A final answer counted (R341). -/
def State.countAnswer (s : State) (t : Nat) : State :=
  let x := s.tile t
  s.setTile t { x with bank := { x.bank with ans := satInc x.bank.ans 1 } }

/-- R340: the answer to a claim reaches its origin. An accepted claim writes nothing; a refused one claims the alternative or writes
0xFF. -/
def execClaimAnswerArrival (k : Nat) (s : State) : Host.Outcome State Fault Refusal :=
  match s.ingressPacket k with
  | none => .next s
  | some (_, p) =>
    if !p.isAnswer then .next s
    else match s.takeUnicast k 9 with
      | none => .next s
      | some (s, none) => finish s
      | some (s, some (t, p)) =>
        if nameCol p.name = 1 then finish (s.countAnswer t)
        else if (s.jobOf t).cpol && p.aux.getLsbD 25 then
          let alt := p.aux.extractLsb' 19 6
          let s := s.claimByte t p.aux (alt.setWidth 8)
          let pop : BitVec 24 := p.row1.extractLsb' 0 4 ++ p.col1
          finish (s.postEvent t noIssuer (mkName pop 0 (alt.setWidth 20)) (p.tag + 1) (p.aux &&& ~~~0x2000000#32) false)
        else finish ((s.claimByte t p.aux 0xFF).countAnswer t)

/-! ### Errors and power (R364, R365, R372) -/

/-- R364: a tile faults on an uncorrectable error of its storage, or on a read of bytes that an uncorrectable memory error has
poisoned. -/
def execTileFault (t : Nat) (c : TileFaultCause) (s : State) : Host.Outcome State Fault Refusal :=
  if !s.tileLive t then .next s
  else match c with
    | .storage addr readable =>
      let s := if readable then s else s.setTile t { s.tile t with badSave := true }
      finish (s.faultTile t 1 addr 0 readable)
    | .poison pa =>
      finish (({ s with poison := SMap.set false s.poison pa true }).faultTile t 3 (BitVec.ofNat 64 pa) 0 true)

/-- The unit number of record 0x20 (R360). -/
def StorageUnit.num : StorageUnit → Nat
  | .scratchpad => 1
  | .frames => 2
  | .registers => 3
  | .bank => 4
  | .caches => 5

/-- The unit that a corrected error is found in. -/
def softUnit : SoftError → StorageUnit
  | .single u => u
  | .cleanCopy _ => .caches

/-- Whether a soft error can be corrected: a double error, when it stands in a clean copy (R365). -/
def Tile.corrects (x : Tile) : SoftError → Bool
  | .single _ => true
  | .cleanCopy key => x.tdc.any fun c => c.key == key && c.dirty == 0

/-- R365: a corrected error is counted, and record 0x20 is posted when the count reaches a nonzero threshold; a clean copy with a double error
is invalidated, and will be fetched again. -/
def execSoftErrorCorrected (t : Nat) (e : SoftError) (s : State) : Host.Outcome State Fault Refusal :=
  if !s.tileLive t || !(s.tile t).corrects e then .next s
  else
    let s := match e with
      | .single _ => s
      | .cleanCopy key => s.dropTdc t fun c => c.key == key
    let x := s.tile t
    let n := x.corrected + 1
    if s.sethr ≠ 0 ∧ s.sethr.toNat ≤ n then
      finish ((s.setTile t { x with corrected := 0 }).postOrphan
        { typ := 0x20, ltn := t, w4 := BitVec.ofNat 64 n, w5 := BitVec.ofNat 64 (StorageUnit.num (softUnit e)) } false)
    else finish (s.setTile t { x with corrected := n })

/-- A packet that a router without its tile's power is sending ends with a poisoned tail (R372). -/
def Packet.loseTail (t : Nat) (p : Packet) : Packet :=
  match p.place with
  | .router r | .summit r => if r = t ∧ p.mt.isNone then { p with poison := true } else p
  | _ => p

/-- R372: a tile loses power: its contents are lost, its router ends what it is sending with poisoned tails, and the affected tiles of
its field ask again for what they miss (R267). -/
def execTilePowerLoss (t : Nat) (s : State) : Host.Outcome State Fault Refusal :=
  if !s.tileLive t then .next s
  else
    let job := (s.tile t).job
    let s := if indexOf t < 1024 then s.loseSlice t false else s
    let s := s.setTile t (s.tile t).poweredOff
    let s := { s with packets := (s.packets.filterMap (Packet.lose t false)).map (Packet.loseTail t) }
    finish (((s.affected (hostTile t) (hostTile t)).filter fun u => (s.tile u).job == job).foldl State.sendReqs s)

end Sys2Proof.Machine
end

