-- ==== Sys2Proof/Machine/Start.lean ====
section
/-!
DEFINITION. Machine/Start.lean: the tables that START reads and checks (R74, R76, R98, R203, R234, R235, R254, R310, R329, R344, R356,
R394, R396, R434).
-/
namespace Sys2Proof.Machine

/-! ### What the tables name (R235, R434) -/

/-- Whether a table may name a tile: it is of the job's allotment, not retired and in use (R235, R434). -/
def State.placeable (s : State) (j : Nat) (t : BitVec 17) : Bool :=
  (s.spur (spurOf t.toNat)).job.toNat == j && !(s.tile t.toNat).retired && s.enabled t.toNat
    && decide (indexOf t.toNat < 1088)

/-- A list of tiles, every one of which a table may name. -/
def State.rdPlaces (s : State) (j pa n : Nat) : Rd (List (BitVec 17)) := do
  let l ← s.rdTiles pa n
  ensure (l.all (s.placeable j))
  pure l

/-! ### Templates and placements (R74, R76, R234, R235) -/

/-- The first address after the template records, where their subscription records stand (log entry 10). -/
def Job.subsBase (x : Job) : Nat := x.tmplA.toNat + 32 * (x.ntmpl.toNat + 1)

/-- A subscription record (R74): the limits of R203 and the kind of its slot are checked. -/
def State.rdSub (s : State) (x : Job) (nslot : Nat) (kinds : Word) (i : Nat) :
    Rd (BitVec 24 × BitVec 20 × BitVec 20 × BitVec 20 × BitVec 20 × BitVec 4 × BitVec 2) := do
  let p := x.subsBase + 24 * i
  let bs ← s.rdBytes p 24
  let f (k n : Nat) : Nat := leNat ((bs.drop k).take n)
  let (r0, r1, c0, c1, slot, mode) := (f 4 4, f 8 4, f 12 4, f 16 4, f 20 1, f 21 1)
  ensure (f 22 2 = 0 && decide (r0 ≤ r1) && decide (c0 ≤ c1) && decide (r1 < 2 ^ 20) && decide (c1 < 2 ^ 20)
    && decide ((r1 + 1 - r0) * (c1 + 1 - c0) ≤ 256) && decide (mode < 3) && decide (slot < nslot)
    && decide (wbits kinds (4 * slot + 3) (4 * slot) < 2))
  pure (BitVec.ofNat 24 (f 0 3), BitVec.ofNat 20 r0, BitVec.ofNat 20 r1, BitVec.ofNat 20 c0, BitVec.ofNat 20 c1,
        BitVec.ofNat 4 slot, BitVec.ofNat 2 mode)

/-- `n` words of a table. -/
def State.rdWords (s : State) (pa n : Nat) : Rd (List Word) := rdAll (fun i => s.rdWord (pa + 8 * i)) (List.range n)

/-- A format table by its index; none for 0xFFFF (R76, R98). -/
def State.rdFmt (s : State) (x : Job) (k : Nat) : Rd (Option (Vector Word 16)) :=
  if k = 0xFFFF then .ok none
  else do
    let l ← s.rdWords (x.tabs.toNat + 32 * k) 16
    ensure (l.all fmtLegal)
    pure (some (Vector.ofFn fun i => l.getD i.val 0))

/-- A shape table by its index; none for 0xFFFF (R76, R344). -/
def State.rdShape (s : State) (x : Job) (k : Nat) : Rd (Option (Vector Word 4)) :=
  if k = 0xFFFF then .ok none
  else do
    let l ← s.rdWords (x.tabs.toNat + 32 * k) 4
    ensure (l.all shapeLegal)
    pure (some (Vector.ofFn fun i => l.getD i.val 0))

/-- The template of index `i` with its placement (R74, R234), checked as R235 sets out. -/
def State.rdTmpl (s : State) (j : Nat) (x : Job) (i : Nat) : Rd Tmpl := do
  let p := x.tmplA.toNat + 32 * i
  let w0 ← s.rdWord p
  let w1 ← s.rdWord (p + 8)
  let w2 ← s.rdWord (p + 16)
  let kinds ← s.rdWord (p + 24)
  let nslot := wbits w1 23 16
  let ecls := wbits w1 26 25
  ensure (wbits w1 31 27 = 0 && wbits w2 63 48 = 0 && decide (1 ≤ nslot) && decide (nslot ≤ 16)
    && decide (wbits w1 15 0 < 2 ^ nslot) && (List.range 16).all (fun k => decide (wbits kinds (4 * k + 3) (4 * k) < 4))
    && ecls != 3 && (ecls != 0 || x.sysjob) && decide (wbits w0 63 32 < wbits (x.ilen.setWidth 64) 37 19))
  let fmt ← s.rdFmt x (wbits w2 31 16)
  let shape ← s.rdShape x (wbits w2 47 32)
  let subs ← rdAll (s.rdSub x nslot kinds) ((List.range (wbits w2 15 0)).map fun k => wbits w1 63 32 + k)
  let q := x.pmap.toNat + 32 * i
  let q0 ← s.rdWord q
  let q1 ← s.rdWord (q + 8)
  let q2 ← s.rdWord (q + 16)
  let q3 ← s.rdWord (q + 24)
  ensure (wbits q0 63 32 = 0 && wbits q2 63 29 = 0 && wbits q3 63 16 = 0)
  let list ← s.rdPlaces j q1.toNat (wbits q0 31 0)
  let cap := wbits q2 28 19
  let total := (subs.map subNames).sum
  -- the deposit area of frame 255 must end below the frame area
  ensure (subs.isEmpty || (decide (1 ≤ cap) && decide (cap ≤ 512)
    && decide (wbits q2 18 0 + 32 * wbits q3 15 0 * 255 + 32 * cap * total ≤ frameBase)))
  pure { entry := w0.extractLsb' 32 32, req := w1.extractLsb' 0 16, nslot := w1.extractLsb' 16 8, urg := wbit w1 24,
         ecls := w1.extractLsb' 25 2, kinds, fmt, shape, subs, list, dbase := q2.extractLsb' 0 19,
         cap := q2.extractLsb' 19 10, dstr := q3.extractLsb' 0 16 }

/-- The root list: template index and tag of each entry (R231, R235). -/
def State.rdRoots (s : State) (x : Job) (tmpls : List Tmpl) : Rd (List (BitVec 16 × BitVec 32)) := do
  let l ← s.rdWords x.root.toNat x.nroot.toNat
  let roots : List (BitVec 16 × BitVec 32) := l.map fun w => (w.extractLsb' 0 16, w.extractLsb' 16 32)
  ensure (l.all fun w => wbits w 63 48 == 0)
  let places ← rdAll (fun i => match roots[i]? with
    | some (k, tag) => match tmpls[k.toNat]? with
      | some m => match m.tileFor tag with
        | some t => .ok t
        | none => .error .bad
      | none => .error .bad
    | none => .error .bad) (List.range roots.length)
  ensure (places.all fun t => decide ((places.filter fun u => u == t).length ≤ 256))
  pure roots

/-! ### The name-directory fragment (R254) -/

/-- A range entry (R254). -/
def State.rdRange (s : State) (j p : Nat) : Rd RangeEnt := do
  let l ← s.rdWords p 8
  let w (i : Nat) : Word := l.getD i 0
  let esz := wbits (w 0) 31 29
  let bytes := wbits (w 4) 35 20 * wbits (w 4) 51 36 * 2 ^ esz
  ensure (wbits (w 0) 63 32 = 0 && wbits (w 1) 63 40 = 0 && wbits (w 2) 63 40 = 0 && wbits (w 3) 63 57 = 0
    && wbits (w 4) 63 52 = 0 && w 5 = 0 && w 6 = 0 && w 7 = 0 && decide (esz < 5) && bytes % 32 = 0
    && decide (bytes ≤ 16384))
  pure { job := BitVec.ofNat 12 j, tens := (w 0).extractLsb' 0 24, quay := (w 0).extractLsb' 24 5,
         esz := (w 0).extractLsb' 29 3, row0 := (w 1).extractLsb' 0 20, row1 := (w 1).extractLsb' 20 20,
         col0 := (w 2).extractLsb' 0 20, col1 := (w 2).extractLsb' 20 20, base := (w 3).extractLsb' 0 57,
         nbc := (w 4).extractLsb' 0 20, brows := (w 4).extractLsb' 20 16, bcols := (w 4).extractLsb' 36 16 }

/-- The summit list and the range entries (R254). -/
def State.rdNames (s : State) (j : Nat) (x : Job) : Rd (List (BitVec 17) × List RangeEnt) := do
  let h ← s.rdWords x.ndir.toNat 8
  let w (i : Nat) : Word := h.getD i 0
  let ns := wbits (w 0) 31 0
  ensure (wbits (w 3) 63 32 = 0 && w 5 = 0 && w 6 = 0 && w 7 = 0 && ns != 0 && decide (ns ≤ 65536))
  let slist ← s.rdPlaces j (w 1).toNat ns
  let tents ← rdAll (fun i => s.rdWords ((w 2).toNat + 16 * i) 2) (List.range (wbits (w 0) 63 32))
  ensure (tents.all fun e => wbits (e.getD 0 0) 31 24 == 0 && e.getD 1 0 == 0)
  let ranges ← rdAll (fun i => s.rdRange j ((w 4).toNat + 64 * i)) (List.range (wbits (w 3) 31 0))
  pure (slist, ranges)

/-! ### Populations (R328, R329) -/

/-- A window of a tile: its population, parameter set, first neuron, count and first entry. -/
structure WinEnt where
  tile : Nat
  pop : BitVec 24
  set : BitVec 6
  first : Nat
  count : Nat
  entbase : Nat
  deriving DecidableEq, Repr

/-- The windows of a population. -/
def Pop.windows (p : Pop) : List WinEnt :=
  p.list.zipIdx.map fun (t, i) =>
    { tile := t.toNat, pop := p.id, set := p.set, first := i * p.per.toNat,
      count := min p.per.toNat (p.neur.toNat + 1 - i * p.per.toNat), entbase := p.entbase.toNat }

/-- Whether two windows share an entry of one tile. -/
def WinEnt.overlaps (a b : WinEnt) : Bool :=
  a.tile == b.tile && decide (a.entbase < b.entbase + b.count) && decide (b.entbase < a.entbase + a.count)

/-- Whether no two entries of a list are in a relation. -/
def apart {α : Type} (r : α → α → Bool) : List α → Bool
  | [] => true
  | a :: l => !l.any (r a) && apart r l

/-- A population entry (R329). -/
def State.rdPop (s : State) (j table i : Nat) : Rd Pop := do
  let l ← s.rdWords (table + 8 + 32 * i) 4
  let w (i : Nat) : Word := l.getD i 0
  let (p, a) := s.popEntry table i
  ensure (wbits (w 0) 31 30 = 0 && wbits (w 0) 63 52 = 0 && wbits (w 1) 63 27 = 0 && w 3 = 0
    && decide (1 ≤ p.per.toNat) && decide (p.entbase.toNat + p.per.toNat ≤ 8192))
  let list ← s.rdPlaces j a p.tiles
  pure { p with list }

/-- The windows of every population of a job; none when JTPOP is 0 (R329). -/
def State.rdPops (s : State) (j : Nat) (x : Job) : Rd (List WinEnt) :=
  if x.pop = 0 then .ok []
  else do
    let c ← s.rdWord x.pop.toNat
    ensure (wbits c 63 32 = 0)
    let ps ← rdAll (s.rdPop j x.pop.toNat) (List.range (wbits c 31 0))
    let ws := ps.flatMap Pop.windows
    ensure (apart WinEnt.overlaps ws && ws.all fun v => decide ((ws.filter fun u => u.tile == v.tile).length ≤ 4))
    pure ws

/-! ### Other modules and reductions (R394, R396) -/

/-- An entry of the JTREM list. -/
def State.rdRem (s : State) (p : Nat) : Rd RemEnt := do
  let w0 ← s.rdWord p
  let w1 ← s.rdWord (p + 8)
  ensure (wbits w0 63 48 = 0 && wbits w1 63 31 = 0 && w1.extractLsb' 0 19 != s.modid)
  pure { tens0 := w0.extractLsb' 0 24, tens1 := w0.extractLsb' 24 24, mod := w1.extractLsb' 0 19, rjob := w1.extractLsb' 19 12 }

/-- The JTREM list; none when JTREM is 0 (R394; log entry 36). -/
def State.rdRems (s : State) (x : Job) : Rd (List RemEnt) :=
  if x.rem = 0 then .ok []
  else do
    let c ← s.rdWord x.rem.toNat
    ensure (wbits c 63 16 = 0)
    let l ← rdAll (fun i => s.rdRem (x.rem.toNat + 8 + 16 * i)) (List.range (wbits c 15 0))
    ensure (apart (fun (a b : RemEnt) => decide (a.tens0.toNat ≤ b.tens1.toNat) && decide (b.tens0.toNat ≤ a.tens1.toNat)) l)
    pure l

/-- Whether a reduction's node lies on this module: at a border of two fields, or at a Niesk port (R396). -/
def Reduction.placed (x : Reduction) : Bool :=
  if x.kind = 0 then crossesField x.ltn.toNat (Port.ofNum x.dir.toNat) && decide (indexOf x.ltn.toNat < 1024)
  else x.kind == 1

/-- The router and the port at which a reduction's node stands. -/
def Reduction.site (x : Reduction) : Nat × Port :=
  if x.kind = 0 then (x.ltn.toNat, Port.ofNum x.dir.toNat) else (quayRouter x.port.toNat 0, (quayRim x.port.toNat).2)

/-- An entry of the JTRED list (R396). -/
def State.rdRed (s : State) (j p : Nat) : Rd Reduction := do
  let l ← s.rdWords p 8
  let w (i : Nat) : Word := l.getD i 0
  let mods ← rdAll (fun i => (s.rdBytes ((w 3).toNat + 4 * i) 4).map fun bs => BitVec.ofNat 19 (leNat bs))
    (List.range (wbits (w 4) 19 0))
  let x : Reduction :=
    { job := BitVec.ofNat 12 j, iten := (w 0).extractLsb' 0 24, oten := (w 0).extractLsb' 24 24, typ := (w 0).extractLsb' 48 2,
      planes := (w 0).extractLsb' 50 4, ctx := (w 1).extractLsb' 0 12, iter0 := (w 1).extractLsb' 12 20,
      iter1 := (w 1).extractLsb' 32 20, nper := (w 1).extractLsb' 52 8, kind := (w 2).extractLsb' 0 2,
      port := (w 2).extractLsb' 2 5, ltn := (w 2).extractLsb' 7 17, dir := (w 2).extractLsb' 24 2, mlist := mods,
      stat := (w 5).toNat, row1 := (w 6).extractLsb' 0 20, col1 := (w 6).extractLsb' 20 20 }
  ensure (wbits (w 0) 63 54 = 0 && wbits (w 1) 63 60 = 0 && wbits (w 2) 63 26 = 0 && wbits (w 4) 63 20 = 0
    && wbits (w 6) 63 40 = 0 && w 7 = 0 && x.typ != 3 && decide (x.iter0.toNat ≤ x.iter1.toNat) && x.placed
    && x.nper != 0 && !mods.isEmpty && decide ((x.row1.toNat + 1) * (x.col1.toNat + 1) ≤ 256))
  pure x

/-- The JTRED list; none when JTRED is 0 (R396; log entry 36). No node runs more than 64 reductions. -/
def State.rdReds (s : State) (j : Nat) (x : Job) : Rd (List Reduction) :=
  if x.red = 0 then .ok []
  else do
    let c ← s.rdWord x.red.toNat
    ensure (wbits c 63 16 = 0)
    let l ← rdAll (fun i => s.rdRed j (x.red.toNat + 8 + 64 * i)) (List.range (wbits c 15 0))
    let every := s.reductions ++ l
    ensure (l.all fun r => decide ((every.filter fun q => q.site == r.site).length ≤ 64))
    pure l

/-! ### All of them -/

/-- What START takes from a job's tables. -/
structure StartTabs where
  tmpls : List Tmpl
  roots : List (BitVec 16 × BitVec 32)
  slist : List (BitVec 17)
  ranges : List RangeEnt
  windows : List WinEnt
  rems : List RemEnt
  reds : List Reduction
  deriving DecidableEq, Repr

/-- How many bytes of an image are its CODE, which hold at least the word of the entry bundle of template 0: the job table does not
say how many, a free value (R231, R235, R356; log entry 68). -/
def codeLength (img : Word) (len : Nat) : Nat := Config.codeBytes img len + 4

/-- Every table of a job, read and checked (R235 with its extensions). -/
def State.rdTables (s : State) (j : Nat) : Rd StartTabs := do
  let x := s.job j
  let (ssave, svec) := (bits x.sup.toNat 37 19, bits x.sup.toNat 18 0)
  let (len, ofs) := (bits x.ilen.toNat 37 19, bits x.ilen.toNat 18 0)
  ensure (x.ptroot.toNat % 2048 = 0 && x.save.toNat % 65536 = 0 && svec % 4 = 0 && decide (ofs ≤ svec)
    && decide (svec - ofs < len) && decide (svec - ofs < codeLength x.img len) && decide (ssave + 4 * 0x4400 ≤ frameBase))
  let tmpls ← rdAll (s.rdTmpl j x) (List.range (x.ntmpl.toNat + 1))
  let roots ← s.rdRoots x tmpls
  let (slist, ranges) ← s.rdNames j x
  let windows ← s.rdPops j x
  let rems ← s.rdRems x
  let reds ← s.rdReds j x
  pure { tmpls, roots, slist, ranges, windows, rems, reds }

end Sys2Proof.Machine
end

