-- ==== Sys2Proof/Machine/Jobs.lean ====
section
/-!
DEFINITION. Machine/Jobs.lean: the commands of the job table that claim, start and end a job (R231 to R236, R245, R329, R355, R396,
R434).
-/
namespace Sys2Proof.Machine

/-! ### A command (R231, R232) -/

/-- The outcome of a command: a refusal by its ERR code, or the state after it. -/
abbrev Cmd := Except (BitVec 4) State

/-- SCOPE of a command. -/
def cmdScope (v : Word) : Nat := wbits v 6 4
/-- TGT of a command. -/
def cmdTgt (v : Word) : Nat := wbits v 23 7
/-- Whether a command is unassigned, or a GATE or a RESUME has an unassigned scope (R232). -/
def unassigned (v : Word) : Bool :=
  wbits v 3 0 == 0 || decide (5 < wbits v 3 0) || ((wbits v 3 0 == 3 || wbits v 3 0 == 4) && (cmdScope v == 0 || decide (4 < cmdScope v)))

/-- Whether a job's state refuses every command (R232). -/
def Job.locked (x : Job) : Bool := x.busy || x.st == .scrubbing || x.st == .gating || x.st == .ending

/-- A write of JTCMD: a reserved bit or a job 0 makes it an error response (R13, R231); a refused command sets ERR and changes
nothing else; the write itself completes (R232). -/
def State.command (s : State) (v : Word) (f : Job → Cmd) : Host.Outcome State Fault Refusal :=
  if wbits v 63 24 ≠ 0 ∨ s.jtsel = 0 then finish { s with resp := .error }
  else
    let j := s.jtsel.toNat
    let x := s.job j
    let r : Cmd := if unassigned v then .error 4 else if x.locked then .error 1 else f x
    match r with
    | .ok s => finish ({ s with resp := .ok }.setJob j { s.job j with cmd := v })
    | .error e => finish ({ s with resp := .ok }.setJob j { x with err := e })

/-- A write of JTCMD that holds a command: it acts only when its CMD is that of the event. -/
def State.commandOf (s : State) (v : Word) (code : Nat) (f : Job → Cmd) : Host.Outcome State Fault Refusal :=
  if s.booted && wbits v 3 0 == code then s.command v f else .next s

/-- R232: a JTCMD write with an unassigned command or scope is refused with ERR 4. -/
def execJtcmdUnassigned (v : Word) (s : State) : Host.Outcome State Fault Refusal :=
  if s.booted && unassigned v then s.command v fun _ => .error 4 else .next s

/-! ### ALLOT (R233, R434) -/

/-- A tile as the scrub leaves it (R233). -/
def Tile.scrubbed (x : Tile) : Tile := { powered := !x.retired, retired := x.retired, job := x.job }

/-- The spurs of a bitmap. -/
def bitmapSpurs (bs : List Byte) : List Nat :=
  (List.range 4096).filter fun p => (bs.getD (p / 8) 0).getLsbD (p % 8)

/-- A tile changed on every one of a list of tiles. -/
def State.eachTile (s : State) (ts : List Nat) (f : Tile → Tile) : State := ts.foldl (fun s t => s.setTile t (f (s.tile t))) s

/-- R233: JTCMD 1 claims the spurs of the bitmap, powers their tiles and starts the scrub. -/
def execAllot (v : Word) (s : State) : Host.Outcome State Fault Refusal :=
  s.commandOf v 1 fun x =>
    if x.st ≠ .free then .error 1
    else
      let j := s.jtsel
      let s := s.need x.allot.toNat 512
      let ps := bitmapSpurs (s.pbytes x.allot.toNat 512)
      if ps.any fun p => (s.spur p).job != 0 then .error 2
      else
        let s := ps.foldl (fun s p => s.setSpur p { ({} : Spur) with job := j }) s
        let s := s.setJob j.toNat { x with st := .scrubbing, scrub := true, idle := false, inc := x.inc + 1 }
        .ok (s.eachTile (s.tilesOf j.toNat) fun y => { y with job := j, powered := !y.retired })

/-- R233: the scrub of an allotment completes. -/
def execScrubDone (j : Nat) (s : State) : Host.Outcome State Fault Refusal :=
  let x := s.job j
  if x.st = .scrubbing then
    finish ((s.eachTile (s.tilesOf j) Tile.scrubbed).setJob j { x with st := .ready, scrub := false })
  else .next s

/-! ### START (R232, R235, R245, R329, R355, R396) -/

/-- A bank with a window added at its first unused place, and the entries of the window written (R329). -/
def Bank.addWindow (k : Bank) (w : WinEnt) : Bank :=
  match (List.range 4).find? fun i => !wbit (k.wl.getD i 0) 63 with
  | some i =>
    let k := { k with wl := k.wl.setIfInBounds i (BitVec.ofNat 64 (2 ^ 63 + w.pop.toNat * 2 ^ 32 + w.first)),
                      wh := k.wh.setIfInBounds i (BitVec.ofNat 64 (w.count * 2 ^ 13 + w.entbase)) }
    (List.range w.count).foldl (fun k e => k.setEntry (w.entbase + e) { set := w.set }) k
  | none => k

/-- The image copied to a tile, with SVEC and SSAVE (R79, R232, R355). -/
def Tile.loaded (x : Tile) (ofs : Nat) (img : List Byte) (sup : BitVec 38) : Tile :=
  { x.setPadBytes ofs img with svec := sup.extractLsb' 0 19, ssave := sup.extractLsb' 19 19 }

/-- The windows of a job's populations written on their tiles (R329). -/
def State.writeWindows (s : State) (ws : List WinEnt) : State :=
  ws.foldl (fun s w => s.setTile w.tile { s.tile w.tile with bank := (s.tile w.tile).bank.addWindow w }) s

/-- The root frames, one for each root entry (R232). -/
def State.createRoots (s : State) (tmpls : List Tmpl) (roots : List (BitVec 16 × BitVec 32)) : State :=
  roots.foldl (fun s r => match tmpls[r.1.toNat]? with
    | some m => match m.tileFor r.2 with
      | some t => (s.createFrame t r.1 r.2 none).1
      | none => s
    | none => s) s

/-- The subscription of a reduction's node to its input names, with MODE any (R396). -/
def Reduction.pattern (x : Reduction) : SubRec :=
  { addr := 0, bop := 0, tens := x.iten, mode := 1, row0 := 0, row1 := x.row1, col0 := 0, col1 := x.col1, dst := 0, cap := 0,
    counted := [], strm := none, held := [] }

/-- The reductions of a job put at their nodes, each of which subscribes to its input names (R396). -/
def State.startReductions (s : State) (j : BitVec 12) (l : List Reduction) : State :=
  l.foldl (fun s x =>
    let s := { s with reductions := s.reductions ++ [x] }
    let n := nodeId x.site.1 x.site.2
    (s.subSummits j x.pattern).foldl (fun s m => (s.injectNode n j (s.subPacket 1 x.pattern m) true).1) s) s

/-- A job's energy counted from its START (R414). -/
def Field.startJob (f : Field) (j : Nat) : Field :=
  { f with jobEnergy := f.jobEnergy.erase j, jobBase := f.jobBase.erase j, overJobs := f.overJobs.filter fun k => k.toNat != j }

/-- A job started from checked tables. -/
def State.startJob (s : State) (j : BitVec 12) (x : Job) (q : StartTabs) : State :=
  let ofs := bits x.ilen.toNat 18 0
  let len := min (bits x.ilen.toNat 37 19) (padSize - ofs)
  let s := s.need x.img.toNat len
  let img := s.pbytes x.img.toNat len
  let s := s.eachTile ((s.tilesOf j.toNat).filter fun t => !(s.tile t).retired) fun y => y.loaded ofs img x.sup
  let s := s.setJob j.toNat { x with st := .running, idle := false, gen := s.gen, tmpls := q.tmpls, slist := q.slist,
                                     rems := q.rems, blocks := [], unit := none }
  let s := q.ranges.foldl (fun s e => s.setQuay e.quay.toNat { s.quay e.quay.toNat with ranges := (s.quay e.quay.toNat).ranges ++ [e] }) s
  let s := s.writeWindows q.windows
  let s := { s with fields := s.fields.map fun (kf : Nat × Field) => (kf.1, kf.2.startJob j.toNat) }
  let s := s.startReductions j q.reds
  s.createRoots q.tmpls q.roots

/-- R235: JTCMD 2 checks the tables, copies the image, writes windows and range entries, and creates the root frames. -/
def execStart (v : Word) (s : State) : Host.Outcome State Fault Refusal :=
  s.commandOf v 2 fun x =>
    if x.st ≠ .ready then .error 1
    else match s.rdTables s.jtsel.toNat with
      | .ok q => .ok (s.startJob s.jtsel x q)
      | .error .bad => .error 3
      | .error (.hole pa) => .ok { s with stuck := some pa }

/-! ### END (R232, R434, R436) -/

/-- A tile of a job that ends: every handle is KILLED, and what its berths, frames, engines and queues hold is discarded. -/
def Tile.ended (x : Tile) : Tile :=
  { x with berths := x.berths.map fun y =>
             { ({} : Berth) with handles := y.handles.map fun h => { h with st := .killed } },
           frames := [], fills := [], spawns := [], frozen := none, misses := [], wb := [], ops := [], fetches := [], score := [], qMatrix := [],
           qGather := [], qCopy := Vector.replicate 4 [], qEgress := [], detached := [], subs := [], subOps := [], streams := [],
           egress := [], trapQ := [], handling := none, gate := .idle, moved := [],
           chains := x.chains.map fun c => { c with run := false, paused := false }, bank := { x.bank with q := [] } }

/-- A quay without anything of a job. -/
def Quay.without (y : Quay) (j : BitVec 12) : Quay :=
  { y with ranges := y.ranges.filter fun e => e.job != j, falls := y.falls.filter fun e => e.job != j,
           egress := y.egress.filter fun e => e.pkt.job != j, walks := y.walks.filter fun w => w.job != j,
           walkQ := y.walkQ.filter fun m => m.2.2.job != j }

/-- The network without anything of a job: its packets, name-table entries, retained publications, streams, routes, reductions and
staged copies (R232). -/
def State.purge (s : State) (j : BitVec 12) : State :=
  { s with
    packets := s.packets.filter fun p => p.job != j
    routers := s.routers.map fun kx => (kx.1, { kx.2 with nmt := kx.2.nmt.map fun e => e.filter fun y => y.job != j })
    spurs := s.spurs.map fun kx => (kx.1, { kx.2 with retained := kx.2.retained.filter fun r => r.job != j,
                                                      streams := kx.2.streams.filter fun r => r.job != j,
                                                      reads := if kx.2.job = j then [] else kx.2.reads,
                                                      wb := if kx.2.job = j then [] else kx.2.wb,
                                                      acks := if kx.2.job = j then [] else kx.2.acks })
    fields := s.fields.map fun kx => (kx.1, { kx.2 with routes := kx.2.routes.filter fun r => r.job != j })
    quays := s.quays.map fun kx => (kx.1, kx.2.without j)
    nodes := s.nodes.map fun kx => (kx.1, { kx.2 with egress := kx.2.egress.filter fun e => e.pkt.job != j })
    reductions := s.reductions.filter fun r => r.job != j
    arrivals := s.arrivals.filter fun a => a.job != j
    waiters := s.waiters.filter fun w => (s.tile w.t).job != j
    notices := s.notices.filter fun w => (s.tile w.t).job != j
    cpWalks := s.cpWalks.filter fun w => w.job != j }

/-- R232: JTCMD 5 stops and discards every berth, macro, frame, entry and packet of the job. -/
def execJobEnd (v : Word) (s : State) : Host.Outcome State Fault Refusal :=
  s.commandOf v 5 fun x =>
    if x.st ≠ .ready ∧ x.st ≠ .running ∧ x.st ≠ .gated then .error 1
    else
      let j := s.jtsel
      let s := (s.purge j).eachTile (s.tilesOf j.toNat) Tile.ended
      .ok (s.setJob j.toNat { x with st := .ending, idle := false, unit := none, blocks := [] })

/-- R232: an ending job reaches FREE: its spurs are freed and their tiles power-gated (R434). -/
def execEndDone (j : Nat) (s : State) : Host.Outcome State Fault Refusal :=
  let x := s.job j
  if x.st = .ending then
    let ps := s.spursOf j
    let s := s.eachTile (s.tilesOf j) fun y => { retired := y.retired }
    let s := { s with spurs := ps.foldl (fun m p => m.erase p) s.spurs }
    finish (s.setJob j { x with st := .free, tmpls := [], slist := [], rems := [] })
  else .next s

end Sys2Proof.Machine
end

