-- ==== Sys2Proof/Machine/Gate.lean ====
section
/-!
DEFINITION. Machine/Gate.lean: gating, saving, restoring and moving a unit of a job (R232, R295, R346, R367 to R370, R436), and the
quiescence tree (R368).
-/
namespace Sys2Proof.Machine

/-! ### Units (R230, R232) -/

/-- Whether a tile lies in the unit that a scope and a tile name. -/
def inUnit (scope tgt t : Nat) : Bool :=
  if scope = 1 then t == tgt
  else if scope = 2 then spurOf t == spurOf tgt
  else if scope = 3 then fieldOf t == fieldOf tgt
  else true

/-- The tiles of a job in a unit: its own tiles that are powered or whose save block is kept (R232). -/
def State.unitTiles (s : State) (j scope tgt : Nat) : List Nat :=
  (s.tilesOf j).filter fun t => inUnit scope tgt t

/-- Whether TGT names a tile of the allotment where it must (R232). -/
def State.goodTgt (s : State) (j scope tgt : Nat) : Bool := scope == 4 || (s.tilesOf j).contains tgt

/-- PGATE: some unit smaller than the wafer is gated (R231, R367). -/
def State.pgate (s : State) (j : Nat) : Bool :=
  (s.job j).st == .running && !(s.job j).blocks.isEmpty

/-! ### GATE (R367) -/

/-- A tile whose sources are gated and whose macros are stopped (G1, G2; R171, R436). -/
def Tile.stopAll (x : Tile) : Tile :=
  ([0, 1, 2, 3, 4] : List (Fin 5)).foldl (fun x b => x.stopMacros b .stopped) { x with gate := .stopping }

/-- R367: JTCMD 3 gates the sources of the unit and stops its berths; tiles that an earlier GATE gated stay as they are. -/
def execGate (v : Word) (s : State) : Host.Outcome State Fault Refusal :=
  s.commandOf v 3 fun x =>
    let j := s.jtsel.toNat
    let (scope, tgt) := (cmdScope v, cmdTgt v)
    if x.st ≠ .running then .error 1
    else if !s.goodTgt j scope tgt then .error 5
    else
      let ts := (s.unitTiles j scope tgt).filter fun t => (s.tile t).powered && (s.tile t).gate == .idle
      let s := s.eachTile ts Tile.stopAll
      .ok (s.setJob j { x with st := if scope = 4 then .gating else .running, idle := false, busy := true,
                               unit := some { scope := BitVec.ofNat 3 scope, tgt := BitVec.ofNat 17 tgt, empty := 0 } })

/-- The tiles of a job's GATE that stand in a phase. -/
def State.inPhase (s : State) (j : Nat) (u : GateUnit) (p : GatePhase) : List Nat :=
  (s.unitTiles j u.scope.toNat u.tgt.toNat).filter fun t => (s.tile t).gate == p

/-- Whether the pending results of every berth have arrived (R40, R367). -/
def Tile.settled (x : Tile) : Bool := x.berths.toList.all fun y => y.landing.all fun e => e.wait == .here

/-- R367: every berth of the unit has stopped and its results have arrived, and the drain begins. -/
def execGateStopped (j : Nat) (s : State) : Host.Outcome State Fault Refusal :=
  match (s.job j).unit with
  | none => .next s
  | some u =>
    let ts := s.inPhase j u .stopping
    if ts.all fun t => (s.tile t).settled then finish (s.eachTile ts fun y => { y with gate := .draining }) else .next s

/-! ### The quiescence tree (R232, R368) -/

/-- Whether a router or a spur input holds a packet for a gated unit. -/
def State.isHeld (s : State) (p : Packet) : Bool :=
  match p.place with
  | .router r => s.held r p
  | _ => false

/-- The tile at which a packet stands. -/
def Packet.atTile (p : Packet) : Option Nat :=
  match p.place with
  | .tile t => some t
  | _ => none

/-- Copies that await acknowledgement, with the LTN or node that sent them. -/
def State.allStaged (s : State) : List (Nat × Staged) :=
  (s.tiles.flatMap fun kx => kx.2.egress.map fun e => (kx.1, e))
    ++ (s.quays.flatMap fun kx => kx.2.egress.map fun e => (quayCode kx.1, e))
    ++ (s.nodes.flatMap fun kx => kx.2.egress.map fun e => (2 ^ 17 + kx.1, e))

/-- Whether a tile has no access, write-back, burst or walk outstanding: no memory transaction of its own is under way. -/
def Tile.quietMemory (x : Tile) : Bool :=
  x.ops.isEmpty && x.wb.isEmpty && x.misses.isEmpty && x.fetches.all fun f => f.data.isSome

/-- Whether anything of a job that the tree counts is left, its origin or destination among chosen tiles; a held packet and its staged
copy do not count (R368). -/
def State.unquiet (s : State) (j : Nat) (mine : Nat → Bool) (heldToo : Bool) : Bool :=
  let counts (p : Packet) : Bool := heldToo || !s.isHeld p
  let touches (p : Packet) : Bool :=
    p.mt.isNone && p.job.toNat == j && (mine p.orig.toNat || mine p.dest.toNat || match p.atTile with | some t => mine t | none => false)
  let away (e : Staged) : Bool := s.packets.any fun p => p.orig == e.pkt.orig && p.oseq == e.pkt.oseq && p.typ == e.pkt.typ && s.isHeld p
  (s.packets.any fun p => touches p && counts p)
    || (s.allStaged.any fun oe =>
        oe.2.pkt.job.toNat == j && (mine oe.1 || mine oe.2.pkt.dest.toNat) && (heldToo || !away oe.2))
    || (s.tiles.any fun kx => kx.2.job.toNat == j && mine kx.1
        && (!kx.2.quietMemory || kx.2.bank.due || !kx.2.detached.isEmpty || kx.2.qEgress.any fun i => match i with | .msg _ => true | _ => false))

/-- Whether a job is idle: RUNNING with no live frame and nothing in flight (R232). -/
def State.isIdle (s : State) (j : Nat) : Bool :=
  (s.job j).st == .running && (s.tilesOf j).all (fun t => (s.tile t).liveFrames.isEmpty) && !s.unquiet j (fun _ => true) true

/-- A job after a sweep of the quiescence tree: IDLE, and the count of sweeps that found its gating unit empty. -/
def State.swept (s : State) (j : Nat) : State :=
  let x := s.job j
  let x := { x with idle := s.isIdle j }
  let x := match x.unit with
    | some u =>
      let mine (t : Nat) : Bool := inUnit u.scope.toNat u.tgt.toNat t && (s.tile t).job.toNat == j
      if (s.inPhase j u .stopping).isEmpty && !s.unquiet j mine false then { x with unit := some { u with empty := u.empty + 1 } }
      else { x with unit := some { u with empty := 0 } }
    | none => x
  s.setJob j x

/-- R368: a sweep of the quiescence tree over every job. -/
def execQuiescenceSweep (s : State) : Host.Outcome State Fault Refusal :=
  if s.booted then finish ((s.jobs.map fun kx => kx.1).foldl State.swept s) else .next s

/-! ### The save block (R369) -/

/-- The 320 KiB of a gate save block (R369); `k` numbers the free bytes. -/
def saveBlock (s : State) (t k : Nat) : List Byte :=
  let x := s.tile t
  let inc := (s.jobOf t).inc
  let free (o n : Nat) : List Byte := (List.range n).map fun i => Config.savedByte k (o + i)
  wordsBytes [BitVec.ofNat 64 (b2n x.faulted * 2 ^ 34 + b2n (!x.badSave) * 2 ^ 33 + inc.toNat * 2 ^ 25 + s.gen.toNat * 2 ^ 17 + t % 2 ^ 17),
              x.bank.t.setWidth 64, BitVec.ofNat 64 (b2n x.bank.late * 2 + b2n x.bank.src), 0, 0, 0, 0, 0]
    ++ free 0x40 4032
    ++ x.padBytes frameBase 40960
    ++ ([0, 1, 2, 3] : List (Fin 5)).flatMap (fun b => x.blockBerth b)
    ++ x.blockBerth 4
    ++ (List.range 8192).flatMap (fun i => leBytes 8 ((x.bank.entry i).word x.bank.t).toNat)
    ++ x.bank.psets.toList.flatMap (fun p => leBytes 32 p.toNat)
    ++ free 0x30C00 65536 ++ free 0x40C00 16384 ++ List.replicate 46080 0

/-- A tile that is saved: the frames of its bound berths are SAVED (R346, R369). -/
def Tile.frozenFrames (x : Tile) : Tile :=
  ([0, 1, 2, 3] : List (Fin 5)).foldl (fun x b =>
    let y := x.berths[b]
    if y.status = .bound ∨ y.status = .trapSaving ∨ y.status = .preSaving then
      x.setFrame y.frame.toNat { x.frame y.frame.toNat with st := .saved }
    else x) x

/-- The five berths of a tile. -/
def allBerths : List (Fin 5) := [0, 1, 2, 3, 4]

/-- The save of one tile: its frames and its block; the release after it is entered (R367 G4, R295). -/
def State.saveTile (s : State) (j t : Nat) : State :=
  let s := s.setTile t { (s.tile t).frozenFrames with gate := .saving }
  let s := ({ s with fresh := s.fresh + 1 }).pwrite (s.blockAddr j t) (saveBlock s t s.fresh)
  let x := s.job j
  let s := s.setJob j { x with blocks := x.blocks ++ [{ tile := BitVec.ofNat 17 t, saved := s.tile t }] }
  allBerths.foldl (fun s b => s.pushRelease t b (s.saveScope t)) s

/-- R369: the unit has been found empty by two sweeps in a row, and every tile of it is saved; the releases that follow the saves have been
performed, and the unit is gated. -/
def execGateSaveDone (j : Nat) (s : State) : Host.Outcome State Fault Refusal :=
  match (s.job j).unit with
  | none => .next s
  | some u =>
    let ts := s.inPhase j u .draining
    let saving := s.inPhase j u .saving
    if !(s.inPhase j u .stopping).isEmpty then .next s
    else if !ts.isEmpty then
      if 2 ≤ u.empty ∧ ts.all (fun t => (s.tile t).fills.isEmpty) then finish (ts.foldl (fun s t => s.saveTile j t) s) else .next s
    else if saving.all fun t => (s.tile t).quietMemory then
      let s := s.eachTile saving fun y => { y with gate := .gated }
      let x := s.job j
      finish (s.setJob j { x with st := if u.scope = 4 then .gated else x.st, busy := false, unit := none })
    else .next s

/-! ### RESUME on the same tiles (R370) -/

/-- A local subscription re-sent under the current generation: a SUB that still awaits answers awaits those of the packets now sent
(R200, R272). -/
def State.resubscribe (s : State) (t : Nat) (r : SubRec) : State :=
  let (s, w) := s.sendPattern t noIssuer 1 r (s.subSummits (s.tile t).job r)
  let x := s.tile t
  let x := { x with
    egress := x.egress.map fun e => if w.any fun mw => mw.2 == e.pkt.oseq then { e with again := true } else e
    subOps := x.subOps.map fun o => if o.sub.same r && !o.unsub then { o with waits := w } else o }
  s.setTile t x

/-- Every local subscription of a tile re-sent. -/
def State.resubscribeAll (s : State) (t : Nat) : State := (s.tile t).subs.foldl (fun s r => s.resubscribe t r) s

/-- Whether a tile's save block is valid, as the Filhus memory holds it (R369, R370). -/
def State.blockValid (s : State) (j t : Nat) : Bool := wbit (s.pw (s.blockAddr j t)) 33

/-- A saved tile as the bytes of its block hold it, `rd` reading them: the frame area, the berths, T and EVCTL, the neuron entries and the
parameter sets. What the block's other areas hold has no layout in the spec, and stays as it was saved (R369, R370). -/
def Tile.ofBlock (x : Tile) (rd : Nat → Nat → List Byte) : Tile :=
  let word (o : Nat) : Word := BitVec.ofNat 64 (leNat (rd o 8))
  let x := x.setPadBytes frameBase (rd 0x1000 40960)
  let x := allBerths.foldl (fun x b => x.takeBerth b (rd (blockOffset b) 0x4400)) x
  let t := (word 8).setWidth 32
  let k := { x.bank with t, src := wbit (word 16) 0, late := wbit (word 16) 1,
                         psets := Vector.ofFn fun i => BitVec.ofNat 256 (leNat (rd (0x30400 + 32 * i.val) 32)) }
  { x with bank := (List.range 8192).foldl (fun k i => k.setEntry i (Neuron.ofWord (word (0x20400 + 8 * i)) t)) k }

/-- The bytes of a tile's save block. -/
def State.blockBytes (s : State) (j t o n : Nat) : List Byte := s.pbytes (s.blockAddr j t + o) n

/-- A gated tile restored where it was saved (R370). -/
def State.restoreTile (s : State) (j t : Nat) : State :=
  let s := s.setTile t { (s.tile t).ofBlock (s.blockBytes j t) with gate := .idle }
  let x := s.job j
  let s := s.setJob j { x with blocks := x.blocks.filter fun q => q.tile.toNat != t }
  (allBerths.foldl (fun s b => s.reviveBerth t b) s).resubscribeAll t

/-- The tiles of a unit whose save blocks are kept; the block of a retired tile stays for its move. -/
def State.savedTiles (s : State) (j scope tgt : Nat) : List Nat :=
  (s.unitTiles j scope tgt).filter fun t => !(s.tile t).retired && (s.job j).blocks.any fun q => q.tile.toNat == t

/-- Whether the state admits a RESUME (R232). -/
def State.resumable (s : State) (x : Job) (j : Nat) : Bool := x.st == .gated || s.pgate j

/-- Whether a RESUME moves a save block (R232, R355). -/
def Job.moves (x : Job) (v : Word) : Bool := cmdScope v == 1 && x.move.getLsbD 17

/-- R370: JTCMD 4 restores the unit from its save blocks, re-sends its subscriptions and releases its held packets. -/
def execResume (v : Word) (s : State) : Host.Outcome State Fault Refusal :=
  if (s.job s.jtsel.toNat).moves v then .next s
  else s.commandOf v 4 fun x =>
    let j := s.jtsel.toNat
    let (scope, tgt) := (cmdScope v, cmdTgt v)
    if !s.resumable x j then .error 1
    else if !s.goodTgt j scope tgt then .error 5
    else
      let ts := s.savedTiles j scope tgt
      if ts.any (fun t => !s.blockValid j t) || (scope != 4 && (s.tile tgt).faulted) then .error 1
      else
        let s := ts.foldl (fun s t => s.restoreTile j t) s
        .ok (s.setJob j { s.job j with st := .running })

/-! ### RESUME onto another tile (R346, R370) -/

/-- Where saved frame `f` is created on a tile: at its own index when that is FREE, else at the lowest FREE frame. -/
def Tile.placeFor (x : Tile) (f : Nat) : Option Nat := if (x.frame f).st = .free then some f else x.freeFrame

/-- The saved frames created on another tile, with the map of their indices (R346 step 1). -/
def State.moveFrames (s : State) (t : Nat) (old : Tile) : State × List (Nat × Nat) :=
  old.liveFrames.foldl (fun (a : State × List (Nat × Nat)) f =>
    let (s, m) := a
    let x := s.tile t
    match x.placeFor f with
    | none => a
    | some g =>
      let y := old.frame f
      let y := { y with pres := y.pres &&& ~~~y.deliv, deliv := 0 }
      let y := if y.st = .saved then y else { y with st := .wait, age := 0 }
      let s := s.setTile t (x.setFrame g y)
      let s := if y.st = .wait ∧ y.pres &&& y.req = y.req then s.fire t g y.last none else s
      (s, m ++ [(f, g)])) (s, [])

/-- A local subscription of a moved frame, under its new index. -/
def movedSub (r : SubRec) (g : Nat) : SubRec :=
  { r with bop := r.bop &&& ~~~(0xFF#64 <<< 32) ||| (BitVec.ofNat 64 g <<< 32), counted := [], strm := none, held := [] }

/-- The template's subscriptions of each moved frame installed, and the saved records of a program's own re-sent (R346 step 2, R370). -/
def State.moveSubs (s : State) (t : Nat) (old : Tile) (m : List (Nat × Nat)) : State :=
  m.foldl (fun s fg =>
    let y := old.frame fg.1
    let s := match s.tmpl t y.tidx with
      | some k => (tmplSubs k fg.2 y.tag 0 k.subs).foldl (fun s r => s.installSub t y.tidx r) s
      | none => s
    (old.subs.filter fun r => r.addr != 0 && r.frame.toNat == fg.1).foldl (fun s r =>
      let r := movedSub r fg.2
      let x := s.tile t
      if 256 ≤ x.subs.length then s.postSubStatus t 1 r y.tidx
      else (s.setTile t { x with subs := x.subs ++ [r] }).resubscribe t r) s) s

/-- What a saved berth of a moved tile becomes on the new one: it waits for the presence bits of its frame (R346 step 3). -/
def Tile.moveBerth (x old : Tile) (m : List (Nat × Nat)) (b : Fin 5) : Tile :=
  let y := old.berths[b]
  if y.status = .free then x
  else
    let x := if y.status = .trapped ∨ y.status = .held then
        x.deviceWrite (saveBase x b.val) (old.padBytes (saveBase old b.val) 0x4400)
      else x
    if b = 4 then { x.setBerth b { y with status := .moving } with moved := x.moved ++ [(b, none, y.status)] }
    else match m.find? fun fg => fg.1 == y.frame.toNat with
      | some (f, g) =>
        { x.setBerth b { y with frame := BitVec.ofNat 8 g, status := .moving } with
            moved := x.moved ++ [(b, some (old.frame f).pres, y.status)] }
      | none => x

/-- Notices on their way to a moved tile. -/
def Waiter.moveTo (t' t : Nat) (w : Waiter) : Waiter := if w.t = t' then { w with t } else w

/-- The block of tile `t'` restored onto tile `t` (R346, R370): frames and subscriptions, the registers that the block holds, and
the berths. -/
def State.moveTile (s : State) (j t' t : Nat) (saved : Tile) : State :=
  let old := saved.ofBlock (s.blockBytes j t')
  let s := allBerths.foldl (fun s b => s.acquire t b (s.saveScope t)) s
  let (s, m) := s.moveFrames t old
  let x := s.tile t
  let s := s.setTile t { x with
    chains := old.chains, chainTurn := old.chainTurn, steer := old.steer, streams := old.streams, bank := old.bank,
    spawns := old.spawns, trapQ := old.trapQ, handling := old.handling, scause := old.scause, sbad := old.sbad, sdet := old.sdet,
    sberth := old.sberth }
  let s := s.moveSubs t old m
  let s := s.setTile t (([0, 1, 2, 3, 4] : List (Fin 5)).foldl (fun x b => x.moveBerth old m b) (s.tile t))
  let s := { s with
    arrivals := s.arrivals.map fun (a : Arrival) => if a.t = t' then { a with t } else a
    waiters := s.waiters.map (Waiter.moveTo t' t)
    notices := s.notices.map (Waiter.moveTo t' t) }
  let x := s.job j
  let s := s.setJob j { x with st := .running, move := x.move &&& ~~~(1#18 <<< 17),
                               blocks := x.blocks.filter fun q => q.tile.toNat != t' }
  let s := s.setTile t' (s.tile t').scrubbed
  s.restoreMoved t

/-- R346: RESUME of scope tile with JTMOVE.V = 1 restores the block of FROM onto TGT. -/
def execResumeMove (v : Word) (s : State) : Host.Outcome State Fault Refusal :=
  if !(s.job s.jtsel.toNat).moves v then .next s
  else s.commandOf v 4 fun x =>
    let j := s.jtsel.toNat
    let tgt := cmdTgt v
    let t' := x.move.toNat % 2 ^ 17
    let y := s.tile tgt
    if !s.resumable x j then .error 1
    else if !s.goodTgt j 1 tgt || !(s.tilesOf j).contains t' then .error 5
    else match x.blocks.find? fun q => q.tile.toNat == t' with
      | none => .error 1
      | some q =>
        let busy := !y.liveFrames.isEmpty || y.berths.toList.any fun z => z.status == .held
        if !s.blockValid j t' || y.faulted || (busy && tgt != t') then .error 1
        else if tgt = t' then
          let s := s.restoreTile j tgt
          .ok (s.setJob j { s.job j with st := .running, move := x.move &&& ~~~(1#18 <<< 17) })
        else .ok (s.moveTile j t' tgt q.saved)

end Sys2Proof.Machine
end

