-- ==== Sys2Proof/Machine/Advance.lean ====
section
/-!
DEFINITION. Machine/Advance.lean: retiring a tile (R375, R361, R422) and advancing the wafer generation (R200, R272, R361, R375).
-/
namespace Sys2Proof.Machine

/-- The reply to a write that is accepted. -/
def State.accept (s : State) : State := { s with resp := .ok }
/-- A write that is refused: an error response, and nothing changes (R13). -/
def State.deny (s : State) : Host.Outcome State Fault Refusal := finish { s with resp := .error }

/-! ### RETIRE (R375) -/

/-- Whether a tile holds work of a job whose unit with the tile is not gated (R375). -/
def State.occupied (s : State) (t : Nat) : Bool :=
  let x := s.tile t
  x.job != 0 && x.gate != .gated && (!x.liveFrames.isEmpty || x.berths.toList.any fun y => y.status != .free && y.status != .ending)

/-- R375: a RETIRE write power-gates the tile, marks its router and links dead, has the field run its sweep, logs the tile and posts
record 0x21. A tile that is retired already is left as it is (R361). -/
def execRetire (v : Word) (s : State) : Host.Outcome State Fault Refusal :=
  let t := wbits v 16 0
  if !s.booted then .next s
  else if wbits v 63 18 ≠ 0 ∨ s.retireBusy ∨ 1088 ≤ indexOf t then s.deny
  else if (s.tile t).retired then finish { s.accept with retire := BitVec.ofNat 17 t }
  else if s.occupied t then s.deny
  else
    let f := fieldOf t
    let s := { s.accept with retire := BitVec.ofNat 17 t, retireBusy := (s.field f).powered }
    let s := s.powerOffTile t
    let s := s.setField f { s.field f with sweep := true }
    finish ((s.postRetired t 2).logRetired t)

/-! ### GENADV (R272, R375) -/

/-- Whether a tile is to refresh its tables in an advance. -/
def State.refreshes (s : State) (t : Nat) : Bool :=
  let x := s.tile t
  let st := (s.jobOf t).st
  x.powered && !x.retired && (st == .running || st == .gating || st == .gated)

/-- What becomes of a packet when its router advances (R271): what stands there is checked again and not forwarded before; what a port was
still sending is cut off, since the rest of it is stopped. -/
def Packet.recheck (p : Packet) : Option Packet :=
  if p.mt.isSome then some p
  else
    let again : Packet := { p with want := [], routed := false }
    match p.fed, p.place with
    | none, .router _ => some again
    | none, .summit r => some { again with place := .router r }
    | none, _ => some p
    | some _, .router _ => if p.due = 0 then none else some { p with void := true, left := p.due, fed := none }
    | some _, _ => none

/-- R375: a GENADV write of GEN + 1 starts an advance: every router takes the new generation and drops its name-match entries. -/
def execGenadv (v : Word) (s : State) : Host.Outcome State Fault Refusal :=
  if !s.booted then .next s
  else if wbits v 63 9 ≠ 0 ∨ s.genBusy ∨ v.extractLsb' 0 8 ≠ s.gen + 1 then s.deny
  else
    let g := s.gen + 1
    finish { s.accept with
      gen := g, genBusy := true
      routers := s.routers.map fun (kx : Nat × Router) => (kx.1, { kx.2 with gen := g, nmt := [], counted := [] })
      packets := s.packets.filterMap Packet.recheck
      refresh := (s.tiles.map fun (kx : Nat × Tile) => kx.1).filter s.refreshes }

/-- The tables that a refresh reads again: templates with their placements, and the summit list (R272, R375). -/
def State.rdRefresh (s : State) (j : Nat) : Rd (List Tmpl × List (BitVec 17)) := do
  let x := s.job j
  let tmpls ← rdAll (s.rdTmpl j x) (List.range (x.ntmpl.toNat + 1))
  let (slist, _) ← s.rdNames j x
  pure (tmpls, slist)

/-- A job's tables read again; publications whose summit has left SLIST are retained no longer (R272). -/
def State.reread (s : State) (j : BitVec 12) : State :=
  match s.rdRefresh j.toNat with
  | .ok (tmpls, slist) =>
    let s := s.setJob j.toNat { s.job j.toNat with tmpls, slist }
    { s with spurs := s.spurs.map fun (kx : Nat × Spur) =>
        (kx.1, { kx.2 with retained := kx.2.retained.filter fun r => r.job != j || slist.contains r.summit }) }
  | .error .bad => s
  | .error (.hole pa) => { s with stuck := some pa }

/-- The copies that a stale report stopped injected again, under the new generation (R200). -/
def State.resendStopped (s : State) (t : Nat) : State :=
  let l := s.staged t
  let s := s.setStaged t (l.map fun e => { e with stopped := false })
  (l.filter fun e => e.stopped).foldl (fun s e => s.reinject t e.pkt) s

/-- JTGEN of a job takes the new generation when every tile of the job is done (R375). -/
def State.takeGen (s : State) (j : BitVec 12) : State :=
  if s.refresh.any fun u => s.refreshes u && (s.tile u).job == j then s else s.setJob j.toNat { s.job j.toNat with gen := s.gen }

/-- R272: a tile reads its tables again and re-sends its subscriptions and its stopped packets; a gated tile's are re-sent at its
RESUME (R370). -/
def execTableRefresh (t : Nat) (s : State) : Host.Outcome State Fault Refusal :=
  if s.genBusy && s.refresh.contains t && s.refreshes t then
    let s := { s with refresh := s.refresh.filter fun u => u != t }
    let s := (s.reread (s.tile t).job).takeGen (s.tile t).job
    if (s.tile t).gate = .gated then finish s else finish ((s.resubscribeAll t).resendStopped t)
  else .next s

/-- The nodes of the reductions subscribe again (R272, R396). -/
def State.renewReductions (s : State) : State :=
  s.reductions.foldl (fun s x =>
    let n := nodeId x.site.1 x.site.2
    (s.subSummits x.job x.pattern).foldl (fun s m => (s.injectNode n x.job (s.subPacket 1 x.pattern m) true).1) s) s

/-- R375: every tile has refreshed its tables and BUSY clears; a job without a tile of its own takes the new JTGEN with it. -/
def execGenadvDone (s : State) : Host.Outcome State Fault Refusal :=
  if s.genBusy && !(s.refresh.any s.refreshes) then
    let s := { s with genBusy := false, refresh := [],
                      jobs := s.jobs.map fun (kx : Nat × Job) => (kx.1, if kx.2.st = JState.free then kx.2 else { kx.2 with gen := s.gen }) }
    finish s.renewReductions
  else .next s

end Sys2Proof.Machine
end

