-- ==== Sys2Proof/Machine/Registers.lean ====
section
/-!
DEFINITION. Machine/Registers.lean: the Filhus writes that act when they are made: translation shootdown (R315), counter snapshots
(R318, R319), channel ranges (R304), the tick period (R326), the orphan queue and reply notices (R358, R361), watchpoints (R356),
arbitration (R383) and the module identifier (R391).
-/
namespace Sys2Proof.Machine

/-! ### Shootdown (R315) -/

/-- R315: a SHOOT write starts a shootdown of a job's translations. -/
def execShoot (v : Word) (s : State) : Host.Outcome State Fault Refusal :=
  if !s.booted then .next s
  else if wbits v 63 16 ≠ 0 ∨ 1 < wbits v 13 12 ∨ s.shootBusy then s.deny
  else finish { s.accept with shoot := v.extractLsb' 0 15, shootBusy := v.extractLsb' 0 12 != 0 }

/-- The dirty bytes of some sectors written at their homes. -/
def State.bringHome (s : State) (a : Asker) (cs : List Sector) : State :=
  (cs.filter fun c => c.dirty != 0).foldl (fun s c => s.homeWrite a false false c.key c.dirty c.data) s

/-- The caches of a job written back and emptied, those of its spurs and then those of its tiles; reads in flight are made again. -/
def State.emptyCaches (s : State) (j : Nat) : State :=
  let s := (s.spursOf j).foldl (fun s p =>
    let y := s.spur p
    (s.setSpur p { y with sectors := [], reads := y.reads.map fun r => { r with stale := true } }).bringHome
      { ltn := (spurTiles p).getD 0 0, job := y.job } y.sectors) s
  (s.tilesOf j).foldl (fun s t =>
    let x := s.tile t
    (s.setTile t { x.overtake (fun _ => true) with tdc := [] }).bringHome (s.asker t) x.tdc) s

/-- Whether no dirty byte of a job is on its way out of one of its caches. -/
def State.cachesSettled (s : State) (j : Nat) : Bool :=
  (s.tilesOf j).all (fun t => (s.tile t).wb.isEmpty) && (s.spursOf j).all fun p => (s.spur p).wb.isEmpty

/-- R315: the shootdown completes: the selected translations are gone from every TLB and spur translation cache, with WB every cache
of the job is written back and empty, and BUSY clears. -/
def execShootDone (s : State) : Host.Outcome State Fault Refusal :=
  if s.shootBusy && (!s.shoot.getLsbD 14 || s.cachesSettled (s.shoot.toNat % 4096)) then
    let job := s.shoot.extractLsb' 0 12
    let page := if s.shoot.extractLsb' 12 2 = 0 then some s.shootva.toNat else none
    let s := { s with tiles := s.tiles.map fun (kv : Nat × Tile) =>
      (kv.1, if kv.2.job = job then kv.2.dropTlb job page else kv.2) }
    let s := s.dropSpurTc job page
    let s := if s.shoot.getLsbD 14 then s.emptyCaches job.toNat else s
    finish { s with shootBusy := false }
  else .next s

/-! ### Channels (R304, R318, R319) -/

/-- The five counters of a channel, in the order of R318. -/
def ChanCnt.words (c : ChanCnt) : List Word :=
  [c.act.setWidth 64, c.rconf.setWidth 64, c.refst.setWidth 64, c.brd.setWidth 64, c.bwr.setWidth 64]

/-- R319: a CSNAP write snapshots and clears the counters of every channel. -/
def execCsnap (v : Word) (s : State) : Host.Outcome State Fault Refusal :=
  if !s.booted then .next s
  else if wbits v 62 44 ≠ 0 ∨ s.csnapBusy then s.deny
  else
    let pa := wbits v 43 0
    let ws := (List.range 1024).flatMap fun c => (SMap.get ({} : ChanCnt) s.chans c).words
    finish (({ s.accept with csnap := v.extractLsb' 0 44, csnapBusy := true, chans := [] }).unitWrite (quayCode 0) pa (wordsBytes ws))

/-- R319: the snapshot has been written. -/
def execCsnapDone (s : State) : Host.Outcome State Fault Refusal :=
  if s.csnapBusy then finish { s with csnapBusy := false } else .next s

/-- Whether NCH suits the hash of a range (R305). -/
def hashFits (hash nch chbase : Nat) : Bool :=
  match hash with
  | 2 | 3 | 6 | 7 => nch == 2 ^ nch.log2 && nch != 0
  | 4 => nch == 1024 && chbase == 0
  | _ => true

/-- Whether a valid range may stand: its bounds, its channels and its hash (R304). -/
def ChanRange.legal (r : ChanRange) : Bool :=
  let (lo, hi) := (wbits r.w0 19 0, wbits r.w0 52 32)
  let (nch, base) := (wbits r.w1 24 14, wbits r.w1 13 4)
  decide (lo < hi) && decide (hi ≤ 2 ^ 20) && decide (base + nch ≤ 1024) && hashFits (wbits r.w1 2 0) nch base

/-- R304: a write to a channel-placement range. -/
def execChannelRangeWrite (r : BitVec 6) (hi : Bool) (v : Word) (s : State) : Host.Outcome State Fault Refusal :=
  if !s.booted then .next s
  else
    let x := SMap.get ({} : ChanRange) s.ranges r.toNat
    if hi then
      let y := { x with w1 := v }
      if wbits v 63 25 ≠ 0 || (wbit v 3 && !y.legal) then s.deny
      else finish { s.accept with ranges := s.ranges.put r.toNat y }
    else if wbits v 63 53 ≠ 0 ∨ wbits v 31 20 ≠ 0 then s.deny
    else finish { s.accept with ranges := s.ranges.put r.toNat { x with w0 := v } }

/-! ### Ticks, records and notices (R326, R358, R361) -/

/-- R326: a write of PER takes effect with the interval after the next increment. -/
def execTickPeriodWrite (v : Word) (s : State) : Host.Outcome State Fault Refusal :=
  if !s.booted then .next s
  else if wbits v 63 32 ≠ 0 ∨ v.toNat < 64 then s.deny
  else finish { s.accept with perNext := v.extractLsb' 0 32 }

/-- R358: a write of ORPHQ; when it is not zero the pending records are posted in order. -/
def execOrphqWrite (v : Word) (s : State) : Host.Outcome State Fault Refusal :=
  if !s.booted then .next s
  else
    let s := { s.accept with orphq := v }
    if v = 0 then finish s
    else
      let l := s.cairn.pending
      finish (l.foldl State.postOrphanWords { s with cairn := { s.cairn with pending := [] } })

/-- R361: a write of RNOTE sends a reply notice to a berth of a tile of the job. -/
def execRnote (v : Word) (s : State) : Host.Outcome State Fault Refusal :=
  if !s.booted then .next s
  else
    let t := wbits v 28 12
    let b := v.extractLsb' 29 3
    if wbits v 63 32 ≠ 0 ∨ v.extractLsb' 0 12 = 0 ∨ (s.tile t).job ≠ v.extractLsb' 0 12 ∨ 4 < b.toNat then s.deny
    else finish { s.accept with rnote := v.extractLsb' 0 32, replies := s.replies ++ [{ t, b }] }

/-! ### Watchpoints (R355, R356) -/

/-- Whether the two words of a watchpoint may stand (R355, R356). -/
def watchLegal (w0 w1 : Word) : Bool :=
  wbits w0 61 44 == 0 && wbits w1 63 32 == 0 && !(wbit w0 63 && w1 == 0) && !(!wbit w0 62 && wbits w0 43 19 != 0)

/-- R356: a write of a word of a watchpoint of the selected job. -/
def execWatchpointWrite (k : BitVec 3) (hi : Bool) (v : Word) (s : State) : Host.Outcome State Fault Refusal :=
  if !s.booted then .next s
  else if s.jtsel = 0 then s.deny
  else
    let j := s.jtsel.toNat
    let x := s.job j
    let (w0, w1) := if hi then (x.wp0.get k.toFin, v) else (v, x.wp1.get k.toFin)
    if watchLegal w0 w1 then
      finish (s.accept.setJob j { x with wp0 := x.wp0.set k.toNat w0 k.isLt, wp1 := x.wp1.set k.toNat w1 k.isLt })
    else s.deny

/-! ### Arbitration and the module identifier (R383, R391) -/

/-- R383: a write of the weights of a field, taken by each port at its next credit reload. -/
def execArbwWrite (f : Nat) (v : Word) (s : State) : Host.Outcome State Fault Refusal :=
  if !s.booted || decide (64 ≤ f) then .next s
  else if wbits v 63 12 ≠ 0 ∨ v.extractLsb' 0 4 = 0 ∨ v.extractLsb' 4 4 = 0 ∨ v.extractLsb' 8 4 = 0 then s.deny
  else finish (s.accept.setField f { s.field f with w1 := v.extractLsb' 0 4, w2 := v.extractLsb' 4 4, w3 := v.extractLsb' 8 4 })

/-- R383: a write of the ageing limit; every packet whose age stands at or above it is promoted. -/
def execArbaWrite (f : Nat) (v : Word) (s : State) : Host.Outcome State Fault Refusal :=
  if !s.booted || decide (64 ≤ f) then .next s
  else if wbits v 63 10 ≠ 0 ∨ v.toNat < 8 then s.deny
  else
    let s := s.accept.setField f { s.field f with arba := v.extractLsb' 0 10 }
    let rs := (s.packets.filterMap fun p => match p.place with
      | .router r => if fieldOf r = f then some r else none
      | _ => none).eraseDups
    finish (rs.foldl (fun s r => ([.n, .e, .s, .w, .l] : List Port).foldl (fun s port => s.promote r port) s) s)

/-- R391: a write of the module identifier, refused while a job is RUNNING or GATED. -/
def execModidWrite (v : Word) (s : State) : Host.Outcome State Fault Refusal :=
  if !s.booted then .next s
  else if wbits v 63 19 ≠ 0 ∨ s.jobs.any (fun (kx : Nat × Job) => kx.2.st == .running || kx.2.st == .gated) then s.deny
  else finish { s.accept with modid := v.extractLsb' 0 19 }

end Sys2Proof.Machine
end

