-- ==== Sys2Proof/Machine/Observe.lean ====
section
/-!
DEFINITION. Machine/Observe.lean: precise stops and dumps (R404, R405, R407), sampling (R410), walks of the critical path (R411), the
trace port (R408) and the energy counters (R413 to R415).
-/
namespace Sys2Proof.Machine

/-! ### DBGCTL (R404, R405, R407) -/

/-- A write of DBGCTL: a dump is refused outside a precise stop and while another one is in progress. -/
def State.writeDbgctl (s : State) (t : Nat) (v : Word) : Host.Outcome State Fault Refusal :=
  let x := s.tile t
  if wbits v 63 3 ≠ 0 || (wbit v 2 && (!x.stopped || x.dump)) then s.deny
  else
    let x := { x with stop := wbit v 0, dall := wbit v 1, dump := x.dump || wbit v 2 }
    let x := if wbit v 0 then { x with stopped := true }
      else { x with stopped := false, halted := false, bphit := false }
    finish (s.accept.setTile t x)

/-- R405: a DBGCTL write of STOP = 1 puts the tile in a precise stop. -/
def execDebugStop (t : Nat) (v : Word) (s : State) : Host.Outcome State Fault Refusal :=
  if s.booted && wbit v 0 && !wbit v 2 then s.writeDbgctl t v else .next s

/-- R405: a DBGCTL write of STOP = 0 releases the tile from any precise stop. -/
def execDebugRelease (t : Nat) (v : Word) (s : State) : Host.Outcome State Fault Refusal :=
  if s.booted && !wbit v 0 && !wbit v 2 then s.writeDbgctl t v else .next s

/-- R407: a DBGCTL write of DUMP = 1 starts a dump. -/
def execDebugDump (t : Nat) (v : Word) (s : State) : Host.Outcome State Fault Refusal :=
  if s.booted && wbit v 2 then s.writeDbgctl t v else .next s

/-- Word 3 of a frame dump (R403). -/
def dumpWord (y : Frame) : Word :=
  BitVec.ofNat 64 (y.nslot.toNat * 2 ^ 51 + y.st.code.toNat * 2 ^ 48 + (y.req &&& ~~~y.pres).toNat * 2 ^ 32 + y.req.toNat * 2 ^ 16
    + y.pres.toNat)

/-- The record of a dumped frame. -/
def dumpRecord (s : State) (t f : Nat) : BitVec 256 :=
  let y := (s.tile t).frame f
  obsRecord s t 5 0 7 (s.cycOf t) f y.tidx y.tag (dumpWord y)

/-- R407: the records of the dump are written, COUNT is set and DUMP clears. -/
def execDumpDone (t : Nat) (s : State) : Host.Outcome State Fault Refusal :=
  let x := s.tile t
  if x.dump && x.stopped then
    let fs := if x.dall then x.liveFrames else x.liveFrames.filter fun f => (x.frame f).st == .wait
    let bs := (fs.map fun f => dumpRecord s t f).flatMap fun r => leBytes 32 r.toNat
    finish ((s.setTile t { x with dump := false, dumpstat := BitVec.ofNat 9 fs.length }).pwrite x.dumpaddr.toNat bs)
  else .next s

/-! ### Samples (R403, R410) -/

/-- The berths in ascending cyclic order from the one sampled last. -/
def sampleOrder (last : BitVec 3) : List (Fin 5) :=
  (List.range 5).map fun i => ⟨(last.toNat + 1 + i) % 5, Nat.mod_lt _ (by decide)⟩

/-- Whether a berth may be sampled: bound, or with a trapped or saved state. -/
def BStatus.sampled : BStatus → Bool
  | .free | .ending => false
  | _ => true

/-- ST of a sample. -/
def State.sampleState (s : State) (t : Nat) (b : Fin 5) : Nat :=
  if (s.berth t b).status ≠ .bound then 4
  else if s.zeroing t b then 3
  else if (s.tile t).frozen = some b then 2
  else if s.issuable t b then 0
  else 1

/-- Whether the next bundle of a berth holds RET. -/
def State.nextRet (s : State) (t : Nat) (b : Fin 5) : Bool :=
  match (s.nextOf t b).1 with
  | .ok xs => xs.any fun x => match x.ins with
    | some (.ret _) => true
    | _ => false
  | .error _ => false

/-- R410: at a cycle where CYC mod 2^PLOG is 0 the tile records a sample of the next berth in BMASK, once. -/
def execSample (t : Nat) (s : State) : Host.Outcome State Fault Refusal :=
  let x := s.tile t
  if !(s.tileLive t && x.smpcfg.getLsbD 0 && (s.cycOf t).toNat % 2 ^ bits x.smpcfg.toNat 5 1 == 0 && x.sampleCyc != some (s.cycOf t)) then .next s
  else
    let x := { x with sampleCyc := some (s.cycOf t) }
    let s := s.setTile t x
    match (sampleOrder x.sampled).find? fun b => x.smpcfg.getLsbD (6 + b.val) && (s.berth t b).status.sampled with
    | some b =>
      let y := s.berth t b
      let w := BitVec.ofNat 64 (s.sampleState t b * 2 ^ 20 + b2n (s.nextRet t b) * 2 ^ 19 + y.ip.toNat % 2 ^ 19)
      let s := s.setTile t { x with sampled := BitVec.ofNat 3 b.val }
      finish (s.traceRec t (obsRecord s t 1 0 b.val (s.cycOf t) y.frame.toNat (x.frame y.frame.toNat).tidx y.tag w))
    | none => finish (s.traceRec t (obsRecord s t 1 0 7 (s.cycOf t) 0 0 0 0))

/-! ### The critical path (R411) -/

/-- The tile to which a walk moves, and the binding there that made the origin; none when the history no longer holds it. -/
def State.walkOrigin (s : State) (w : CpWalk) : Nat × Option BindRec :=
  let (t, bind) : Nat × Option Nat := match w.origin with
    | .binding b => (w.tile, some b)
    | .packet g o _ => (g.toNat, ((s.tile g.toNat).injected.find? fun i => i.1 == o).map fun i => i.2)
  (t, match bind with
    | some b => (s.tile t).history.find? fun h => h.bind == b
    | none => none)

/-- R411: a walk writes its next record and moves to the origin of that binding's last fill. -/
def execCriticalPathStep (k : Nat) (s : State) : Host.Outcome State Fault Refusal :=
  match s.cpWalks[k]? with
  | none => .next s
  | some w =>
    let s := { s with cpWalks := s.cpWalks.eraseIdx k }
    let (t, h) := s.walkOrigin w
    let lost := Config.lostStep s.fresh
    let s := { s with fresh := s.fresh + 1 }
    if !s.tileLive t then finish s
    else match h with
    | none =>
      let r := obsRecord s t 6 (bits lost.toNat 55 52) 7 (lost.extractLsb' 64 64) (bits lost.toNat 183 176)
        (lost.extractLsb' 160 16) (lost.extractLsb' 128 32) (stepWord (bits lost.toNat 223 192) w.step 3 w.mark.toNat)
      finish (s.traceRec t r)
    | some h =>
      let fin := stepEnd t (w.step + 1) w.depth h.origin
      let r := obsRecord s t 6 h.last.toNat 7 h.lcyc (bits lost.toNat 183 176) h.tidx h.tag (stepWord h.cyc.toNat w.step fin w.mark.toNat)
      let room := s.traceRoom t
      let s := s.traceRec t r
      match h.origin with
      | some o =>
        if fin = 0 && room then
          finish { s with cpWalks := s.cpWalks ++ [{ w with origin := o, tile := t, step := w.step + 1 }] }
        else finish s
      | none => finish s

/-! ### The trace port (R408) -/

/-- R408: the oldest record of a tile's queue goes to its field's trace port, or is dropped there. -/
def execTraceDrain (t : Nat) (s : State) : Host.Outcome State Fault Refusal :=
  let x := s.tile t
  let f := s.field (fieldOf t)
  match x.traceQ with
  | [] => .next s
  | r :: rs =>
    if f.trbase = 0 ∨ !f.powered then .next s
    else
      let s := s.setTile t { x with traceQ := rs }
      if f.traceQ.length < 64 then finish (s.setField (fieldOf t) { f with traceQ := f.traceQ ++ [r] })
      else finish (s.setField (fieldOf t) { f with trdropf := satInc f.trdropf 1 })

/-- R408: the trace port writes its oldest record into the ring, or drops it when the ring is full. -/
def execTraceRingWrite (f : Nat) (s : State) : Host.Outcome State Fault Refusal :=
  let x := s.field f
  match x.traceQ with
  | [] => .next s
  | r :: rs =>
    if x.trbase = 0 ∨ !x.powered then .next s
    else if (x.trprod - x.trcons).toNat = 2 ^ x.trlogn.toNat then
      finish (s.setField f { x with traceQ := rs, trdropf := satInc x.trdropf 1 })
    else
      let a := x.trbase.toNat + 32 * (x.trprod.toNat % 2 ^ x.trlogn.toNat)
      finish ((s.setField f { x with traceQ := rs, trprod := x.trprod + 1 }).pwrite a (leBytes 32 r.toNat))

/-! ### Energy (R413, R415) -/

/-- R413: 256 cycles of a field have passed since its last addition: its clock stands at the next multiple of 256. -/
def execEnergyAddition (f : Nat) (s : State) : Host.Outcome State Fault Refusal :=
  let x := s.field f
  if x.powered then finish (s.clockTo f ((x.cyc.toNat / 256 + 1) * 256)) else .next s

/-- R415: a field's clock reaches the first cycle of its next energy window. -/
def execEnergyWindowStart (f : Nat) (s : State) : Host.Outcome State Fault Refusal :=
  let x := s.field f
  if x.powered then finish (s.clockTo f ((x.cyc.toNat / 2 ^ x.wlog.toNat + 1) * 2 ^ x.wlog.toNat)) else .next s

end Sys2Proof.Machine
end

