-- ==== Sys2Proof/Machine/Filhus.lean ====
section
/-!
DEFINITION. Machine/Filhus.lean: the Filhus cores' register map (R417): snapshot-and-clear reads (R11, R12), writes of the registers
that have no behaviour of their own (R11, R13, R231, R315, R329, R355, R361, R383, R391, R392, R394, R396, R404, R409, R414, R427), and
inbound PCIe transactions (R431).
-/
namespace Sys2Proof.Machine

/-- MSBASE. -/
def msBase : Nat := 0x40000000000
/-- JTBASE. -/
def jtBase : Nat := 0x40100000000
/-- CRBASE. -/
def crBase : Nat := 0x40100010000

/-- Whether an offset lies in the status block of a router (R387). -/
def isRouter (o : Nat) : Bool := decide (0x1000000 ≤ o) && decide (o < 0x1000000 + 0x40 * 2 ^ 17) && decide (indexOf ((o - 0x1000000) / 0x40) < 1024)

/-- Whether an offset lies in the detour table of a router: 1,088 entries of 4 bits (R388). -/
def isDetour (o : Nat) : Bool :=
  decide (0x10000000 ≤ o) && decide (o < 0x10000000 + 0x400 * 2 ^ 17) && decide (indexOf ((o - 0x10000000) / 0x400) < 1024)
    && decide (o % 0x400 < 544)

/-- Whether an offset lies in the debug block of a tile (R404). -/
def isDebug (o : Nat) : Bool :=
  decide (0x40000000 ≤ o) && decide (o < 0x40000000 + 0x4000 * 2 ^ 17) && decide (indexOf ((o - 0x40000000) / 0x4000) < 1088)

/-! ### Snapshot-and-clear reads (R11, R12) -/

/-- The value of a counter and the state with it cleared. -/
abbrev Snap := Option (Word × State)

/-- A counter of a tile's debug block (R404). -/
def State.snapTile (s : State) (t o : Nat) : Snap :=
  let x := s.tile t
  if o = 0xA0 then some (x.indisc.setWidth 64, s.setTile t { x with indisc := 0 })
  else if o = 0xA8 then
    let y := s.spur (spurOf t)
    some (y.retev.setWidth 64, s.setSpur (spurOf t) { y with retev := 0 })
  else if o = 0xB0 then some (x.trdrop.setWidth 64, s.setTile t { x with trdrop := 0 })
  else none

/-- A word of a router's status block (R387). -/
def State.snapRouter (s : State) (r o : Nat) : Snap :=
  let x := s.router r
  if o < 32 then
    let p := Port.ofNum (o / 8)
    let l := x.link p
    some (BitVec.ofNat 64 (b2n l.dead * 2 ^ 63 + l.crcerr.toNat * 2 ^ 16 + l.resend.toNat),
          s.setRouter r (x.setLink p { l with crcerr := 0, resend := 0 }))
  else if o = 0x20 then some (x.malf.setWidth 64, s.setRouter r { x with malf := 0 })
  else none

/-- A counter of a channel (R318). -/
def State.snapChannel (s : State) (c o : Nat) : Snap :=
  let x := SMap.get ({} : ChanCnt) s.chans c
  let upd (v : BitVec 48) (y : ChanCnt) : Snap := some (v.setWidth 64, { s with chans := s.chans.put c y })
  match o with
  | 0x00 => upd x.act { x with act := 0 }
  | 0x08 => upd x.rconf { x with rconf := 0 }
  | 0x10 => upd x.refst { x with refst := 0 }
  | 0x18 => upd x.brd { x with brd := 0 }
  | 0x20 => upd x.bwr { x with bwr := 0 }
  | _ => none

/-- A counter of a Niesk port (R392). -/
def State.snapPort (s : State) (q o : Nat) : Snap :=
  let y := s.quay q
  match o with
  | 0x10 => some (y.npretx.setWidth 64, s.setQuay q { y with npretx := 0 })
  | 0x18 => some (y.nptx.setWidth 64, s.setQuay q { y with nptx := 0 })
  | 0x20 => some (y.nprx.setWidth 64, s.setQuay q { y with nprx := 0 })
  | _ => none

/-- The counter at an offset of the memory-system register block. -/
def State.snap (s : State) (o : Nat) : Snap :=
  if o % 8 ≠ 0 then none
  else if o = 0x20058 then some (s.orphlost.setWidth 64, { s with orphlost := 0 })
  else if 0x10000 ≤ o ∧ o < 0x20000 then s.snapChannel ((o - 0x10000) / 64) ((o - 0x10000) % 64)
  else if 0x30000 ≤ o ∧ o < 0x30200 ∧ o % 16 = 8 then
    let q := (o - 0x30000) / 16
    let y := s.quay q
    some (y.rldrop.setWidth 64, s.setQuay q { y with rldrop := 0 })
  else if 0x40000 ≤ o ∧ o < 0x41000 ∧ o % 0x40 = 0x20 then
    let f := (o - 0x40000) / 0x40
    let x := s.field f
    some (x.detour.setWidth 64, s.setField f { x with detour := 0 })
  else if 0x50000 ≤ o ∧ o < 0x50800 then s.snapPort ((o - 0x50000) / 0x40) ((o - 0x50000) % 0x40)
  else if 0x60000 ≤ o ∧ o < 0x64000 ∧ o % 0x100 = 0x20 then
    let f := (o - 0x60000) / 0x100
    let x := s.field f
    some (x.trdropf.setWidth 64, s.setField f { x with trdropf := 0 })
  else if isRouter o then s.snapRouter ((o - 0x1000000) / 0x40) (o % 0x40)
  else if isDebug o then s.snapTile ((o - 0x40000000) / 0x4000) (o % 0x4000)
  else none

/-! ### Reads that change nothing (R11) -/

/-- STATE of a job (R231). -/
def JState.num : JState → Nat
  | .free => 0
  | .scrubbing => 1
  | .ready => 2
  | .running => 3
  | .gating => 4
  | .gated => 5
  | .ending => 6

/-- JTSTAT (R231). -/
def State.jtstat (s : State) (j : Nat) : Word :=
  let x := s.job j
  let busy := x.busy || x.st == .scrubbing || x.st == .ending
  BitVec.ofNat 64 (b2n (s.pgate j) * 2 ^ 11 + b2n busy * 2 ^ 10 + b2n x.scrub * 2 ^ 9 + b2n x.idle * 2 ^ 8 + x.err.toNat * 16 + x.st.num)

/-- A register of the selected job (R231, R329, R355, R394, R396, R414). -/
def State.readJob (s : State) (o : Nat) : Option Word :=
  let x := s.job s.jtsel.toNat
  match o with
  | 0x00 => some (s.jtsel.setWidth 64)
  | 0x08 => some x.cmd
  | 0x10 => some (s.jtstat s.jtsel.toNat)
  | 0x18 => some (BitVec.ofNat 64 (b2n x.cpol * 8 + b2n x.sysjob * 4 + x.prio.toNat))
  | 0x20 => some x.allot
  | 0x28 => some x.ptroot
  | 0x30 => some x.tmplA
  | 0x38 => some x.pmap
  | 0x40 => some (x.ntmpl.setWidth 64)
  | 0x48 => some x.tabs
  | 0x50 => some x.ndir
  | 0x58 => some x.root
  | 0x60 => some (x.nroot.setWidth 64)
  | 0x68 => some x.img
  | 0x70 => some (x.ilen.setWidth 64)
  | 0x78 => some x.fq
  | 0x80 => some x.sq
  | 0x88 => some (x.gen.setWidth 64)
  | 0x90 => some x.pop
  | 0x98 => some (x.inc.setWidth 64)
  | 0xA0 => some x.save
  | 0xA8 => some (x.sup.setWidth 64)
  | 0xB0 => some (x.move.setWidth 64)
  | 0xB8 => some x.rem
  | 0x140 => some x.red
  | 0x148 => some (x.elim.setWidth 64)
  | _ =>
    if 0xC0 ≤ o ∧ o < 0x140 ∧ o % 8 = 0 then
      some ((if o % 16 = 0 then x.wp0 else x.wp1).toList.getD ((o - 0xC0) / 16) 0)
    else none

/-- A register of a tile's debug block (R404). -/
def State.readDebug (s : State) (t o : Nat) : Option Word :=
  let x := s.tile t
  if 0x2000 ≤ o then some (((s.router (hostTile t)).entryWords ((o - 0x2000) / 32)).getD (o % 32 / 8) 0)
  else if 0x20 ≤ o ∧ o < 0x60 then some ((if o % 16 = 0 then x.bpA else x.bpB).toList.getD ((o - 0x20) / 16) 0)
  else match o with
    | 0x00 => some (BitVec.ofNat 64 (b2n x.dump * 4 + b2n x.dall * 2 + b2n x.stop))
    | 0x08 => some (BitVec.ofNat 64 (x.bpn.toNat * 8 + b2n x.bphit * 4 + b2n x.halted * 2 + b2n x.stopped))
    | 0x10 => some (x.smpcfg.setWidth 64)
    | 0x18 => some (x.cpcfg.setWidth 64)
    | 0x60 => some (x.dumpaddr.setWidth 64)
    | 0x68 => some (x.dumpstat.setWidth 64)
    | 0x80 => some (x.pbub.setWidth 64)
    | 0x88 => some (x.frzc.setWidth 64)
    | 0x90 => some (x.vhaz.setWidth 64)
    | 0x98 => some (x.latev.setWidth 64)
    | _ => none

/-- A register of a field's arbitration block (R383). -/
def Field.readArb (f : Field) : Nat → Option Word
  | 0x00 => some (BitVec.ofNat 64 (f.w3.toNat * 256 + f.w2.toNat * 16 + f.w1.toNat))
  | 0x08 => some (f.arba.setWidth 64)
  | 0x10 => some (BitVec.ofNat 64 (f.ackto.toNat * 16 + f.nretry.toNat))
  | 0x18 => some (BitVec.ofNat 64 (b2n f.sweep * 2 ^ 16 + f.deadLinks.toNat))
  | _ => none

/-- A register of a field's trace block (R409). -/
def Field.readTrace (f : Field) (o : Nat) : Option Word :=
  if 0x40 ≤ o ∧ o < 0x80 then some (f.trsel.toList.getD ((o - 0x40) / 8) 0)
  else match o with
    | 0x00 => some f.trbase
    | 0x08 => some (f.trlogn.setWidth 64)
    | 0x10 => some (f.trprod.setWidth 64)
    | 0x18 => some (f.trcons.setWidth 64)
    | 0x28 => some (f.trfire.setWidth 64)
    | _ => none

/-- ECOEFw: four coefficients (R414). -/
def coefWord (w : Nat) : Word := BitVec.ofNat 64 (leNat ((List.range 4).flatMap fun i => leBytes 2 (Config.energyCoef (4 * w + i)).toNat))

/-- A register of a field's energy block (R414). -/
def Field.readEnergy (f : Field) (o : Nat) : Option Word :=
  let j := f.ejsel.toNat
  let total := SMap.get 0 f.jobEnergy j
  match o with
  | 0x00 => some (BitVec.ofNat 64 (wholeMj f.energy))
  | 0x08 => some (f.ewin.setWidth 64)
  | 0x10 => some (f.esoft.setWidth 64)
  | 0x18 => some (f.ehard.setWidth 64)
  | 0x20 => some (BitVec.ofNat 64 (wholeMj (f.energy - f.energyBase) * 2 ^ 32 + b2n f.isHard * 2 + b2n f.isSoft))
  | 0x28 => some (f.ejsel.setWidth 64)
  | 0x30 => some (BitVec.ofNat 64 (wholeMj total))
  | 0x38 => some (BitVec.ofNat 64 (wholeMj (total - SMap.get 0 f.jobBase j) * 2 ^ 32 + b2n (f.overJobs.contains f.ejsel)))
  | _ => if 0x40 ≤ o ∧ o < 0x60 then some (coefWord ((o - 0x40) / 8)) else none

/-- A register of a Niesk port (R392). -/
def Quay.readPort (y : Quay) : Nat → Option Word
  | 0x00 => some (BitVec.ofNat 64 (y.deadto.toNat * 2 ^ 32 + y.etype.toNat * 2 ^ 16 + b2n y.en))
  | 0x08 => some (BitVec.ofNat 64 (b2n y.npdead * 2 + b2n y.npup))
  | 0x28 => some (y.nppeer.setWidth 64)
  | _ => none

/-- A word of a quay's retag log (R321); an entry that nothing has written reads 0 (log entry 24). -/
def Quay.readLog (y : Quay) (i w : Nat) : Word :=
  let first := (y.rlhead.toNat + 4096 - y.rlog.length % 4096) % 4096
  (y.rlog.getD ((i + 4096 - first) % 4096) 0).extractLsb' (64 * w) 64

/-- A register of the whole module at MSBASE + 0x2_0000 (R315, R319, R326, R358, R361, R391). -/
def State.readModule (s : State) : Nat → Option Word
  | 0x00 => some (BitVec.ofNat 64 (b2n s.shootBusy * 2 ^ 15 + s.shoot.toNat))
  | 0x08 => some (s.shootva.setWidth 64)
  | 0x10 => some (BitVec.ofNat 64 (b2n s.csnapBusy * 2 ^ 63 + s.csnap.toNat))
  | 0x18 => some (s.perNext.setWidth 64)
  | 0x20 => some (s.tkcnt.setWidth 64)
  | 0x28 => some s.orphq
  | 0x30 => some (s.sethr.setWidth 64)
  | 0x38 => some (s.rnote.setWidth 64)
  | 0x40 => some (BitVec.ofNat 64 (b2n s.genBusy * 256 + s.gen.toNat))
  | 0x48 => some (BitVec.ofNat 64 (b2n s.retireBusy * 2 ^ 17 + s.retire.toNat))
  | 0x50 => some (s.modid.setWidth 64)
  | _ => none

/-- Entries 16k to 16k + 15 of a router's detour table (R388). -/
def State.detourWord (s : State) (r k : Nat) : Word :=
  BitVec.ofNat 64 ((List.range 16).foldr (fun i a => a * 16 + (s.detourEntry r (16 * k + i)).toNat) 0)

/-- A register of the memory-system register block that a read does not clear. -/
def State.readMs (s : State) (o : Nat) : Option Word :=
  if o < 0x400 then
    let x := SMap.get ({} : ChanRange) s.ranges (o / 16)
    some (if o % 16 = 0 then x.w0 else x.w1)
  else if 0x10000 ≤ o ∧ o < 0x20000 ∧ 0x28 ≤ o % 64 then some 0
  else if 0x20000 ≤ o ∧ o < 0x20060 then s.readModule (o - 0x20000)
  else if 0x30000 ≤ o ∧ o < 0x30200 ∧ o % 16 = 0 then some ((s.quay ((o - 0x30000) / 16)).rlhead.setWidth 64)
  else if 0x40000 ≤ o ∧ o < 0x41000 then (s.field ((o - 0x40000) / 0x40)).readArb (o % 0x40)
  else if 0x50000 ≤ o ∧ o < 0x50800 then (s.quay ((o - 0x50000) / 0x40)).readPort (o % 0x40)
  else if 0x50800 ≤ o ∧ o < 0x51000 then some ((s.npsel.toList.getD ((o - 0x50800) / 8) 0).setWidth 64)
  else if 0x60000 ≤ o ∧ o < 0x64000 then (s.field ((o - 0x60000) / 0x100)).readTrace (o % 0x100)
  else if 0x70000 ≤ o ∧ o < 0x74000 then (s.field ((o - 0x70000) / 0x100)).readEnergy (o % 0x100)
  else if 0x400000 ≤ o ∧ o < 0x600000 then some ((s.quay ((o - 0x400000) / 0x10000)).readLog (o % 0x10000 / 16) (o % 16 / 8))
  else if isDetour o then some (s.detourWord ((o - 0x10000000) / 0x400) (o % 0x400 / 8))
  else if isDebug o then s.readDebug ((o - 0x40000000) / 0x4000) (o % 0x4000)
  else none

/-- CRSTAT (R427). -/
def State.crstat (s : State) : Word :=
  BitVec.ofNat 64 (b2n s.cairn.logfull * 2 ^ 18 + s.cairn.grade.toNat * 2 ^ 16 + s.cairn.res.toNat * 256)

/-- What a read of a register's address returns, with the state after it (R11); none where the map lists no register (R417). -/
def State.readReg (s : State) (addr : Nat) : Snap :=
  if addr % 8 ≠ 0 then none
  else if msBase ≤ addr ∧ addr < msBase + 2 ^ 32 then
    match s.snap (addr - msBase) with
    | some r => some r
    | none => (s.readMs (addr - msBase)).map fun v => (v, s)
  else if jtBase ≤ addr ∧ addr < jtBase + 4096 then (s.readJob (addr - jtBase)).map fun v => (v, s)
  else if addr = crBase then some (s.cairn.cmd.setWidth 64, s)
  else if addr = crBase + 8 then some (s.cairn.arg.setWidth 64, s)
  else if addr = crBase + 16 then some (s.crstat, s)
  else none

/-- R11, R12: a Filhus read of a register returns its value, and clears a snapshot-and-clear counter; a read of an address that is not
listed gets an error response (R417). -/
def execRscRead (addr : Nat) (s : State) : Host.Outcome State Fault Refusal :=
  if !s.booted || populated addr || inPcie addr then .next s
  else match s.readReg addr with
    | some (v, s) => finish { s with resp := .value v }
    | none => s.deny

/-! ### Register writes (R11, R13) -/

/-- What a write of an address does: the register has a behaviour, and so an event, of its own; the write is refused; or the state
after it. -/
inductive WriteRes
  | own
  | refused
  | done (s : State)
  deriving DecidableEq, Repr

/-- A write that is refused unless a condition holds. -/
def writeIf (c : Bool) (s : State) : WriteRes := if c then .done s else .refused

/-- A write of a register of the selected job (R231, R329, R355, R394, R396, R414). -/
def State.writeJob (s : State) (o : Nat) (v : Word) : WriteRes :=
  let j := s.jtsel.toNat
  let x := s.job j
  let put (y : Job) : WriteRes := .done (s.setJob j y)
  let fits (n : Nat) (y : Job) : WriteRes := writeIf (decide (v.toNat < 2 ^ n)) (s.setJob j y)
  if o = 0x00 then writeIf (decide (v.toNat < 2 ^ 12) && v != 0) { s with jtsel := v.extractLsb' 0 12 }
  else if s.jtsel = 0 then .refused
  else match o with
    | 0x08 => .own
    | 0x10 => writeIf (decide (v.toNat < 2 ^ 12) && !wbit v 3) (s.setJob j { x with err := x.err &&& ~~~(v.extractLsb' 4 4) })
    | 0x18 => fits 4 { x with prio := v.extractLsb' 0 2, sysjob := wbit v 2, cpol := wbit v 3 }
    | 0x20 => put { x with allot := v }
    | 0x28 => put { x with ptroot := v }
    | 0x30 => put { x with tmplA := v }
    | 0x38 => put { x with pmap := v }
    | 0x40 => fits 16 { x with ntmpl := v.extractLsb' 0 16 }
    | 0x48 => put { x with tabs := v }
    | 0x50 => put { x with ndir := v }
    | 0x58 => put { x with root := v }
    | 0x60 => fits 16 { x with nroot := v.extractLsb' 0 16 }
    | 0x68 => put { x with img := v }
    | 0x70 => fits 38 { x with ilen := v.extractLsb' 0 38 }
    | 0x78 => put { x with fq := v }
    | 0x80 => put { x with sq := v }
    | 0x88 | 0x98 => writeIf (decide (v.toNat < 2 ^ 8)) s
    | 0x90 => put { x with pop := v }
    | 0xA0 => put { x with save := v }
    | 0xA8 => fits 38 { x with sup := v.extractLsb' 0 38 }
    | 0xB0 => fits 18 { x with move := v.extractLsb' 0 18 }
    | 0xB8 => put { x with rem := v }
    | 0x140 => put { x with red := v }
    | 0x148 => fits 32 { x with elim := v.extractLsb' 0 32 }
    | _ => if 0xC0 ≤ o ∧ o < 0x140 then .own else .refused

/-- A write of a tile's debug block (R404). -/
def State.writeDebug (s : State) (t o : Nat) (v : Word) : WriteRes :=
  let x := s.tile t
  let fits (c : Bool) (y : Tile) : WriteRes := writeIf c (s.setTile t y)
  if o = 0 then .own
  else if o = 0x10 then
    fits (decide (v.toNat < 2 ^ 11) && decide (8 ≤ wbits v 5 1) && decide (wbits v 5 1 ≤ 24)) { x with smpcfg := v.extractLsb' 0 11 }
  else if o = 0x18 then
    fits (decide (v.toNat < 2 ^ 32) && wbits v 15 13 == 0 && wbits v 12 7 != 0) { x with cpcfg := v.extractLsb' 0 32 }
  else if 0x20 ≤ o ∧ o < 0x60 then
    let k := (o - 0x20) / 16
    if o % 16 = 0 then fits (wbits v 61 29 == 0) { x with bpA := x.bpA.setIfInBounds k v }
    else fits (wbits v 63 40 == 0) { x with bpB := x.bpB.setIfInBounds k v }
  else if o = 0x60 then fits (decide (v.toNat < 2 ^ 44)) { x with dumpaddr := v.extractLsb' 0 44 }
  else if o = 0x08 then writeIf (decide (v.toNat < 2 ^ 5)) s
  else if o = 0x68 then writeIf (decide (v.toNat < 2 ^ 9)) s
  else if (0x80 ≤ o ∧ o < 0xA0) ∨ (0xA0 ≤ o ∧ o < 0xB8) then writeIf (decide (v.toNat < 2 ^ 48)) s
  else if 0x2000 ≤ o then
    writeIf (match o % 32 / 8 with | 0 => wbits v 6 0 == 0 | 3 => wbits v 63 62 == 0 | _ => wbits v 63 40 == 0) s
  else .refused

/-- A write of a field's arbitration block (R383). -/
def State.writeArb (s : State) (f o : Nat) (v : Word) : WriteRes :=
  if o = 0x00 ∨ o = 0x08 then .own
  else if o = 0x10 then
    writeIf (decide (v.toNat < 2 ^ 20) && decide (256 ≤ wbits v 19 4) && wbits v 3 0 != 0)
      (s.setField f { s.field f with ackto := v.extractLsb' 4 16, nretry := v.extractLsb' 0 4 })
  else if o = 0x18 then writeIf (decide (v.toNat < 2 ^ 17)) s
  else if o = 0x20 then writeIf (decide (v.toNat < 2 ^ 32)) s
  else .refused

/-- A write of a field's trace block (R409). -/
def State.writeTrace (s : State) (f o : Nat) (v : Word) : WriteRes :=
  let x := s.field f
  if o = 0x00 then .done (s.setField f { x with trbase := v })
  else if o = 0x08 then writeIf (decide (v.toNat < 2 ^ 5)) (s.setField f { x with trlogn := v.extractLsb' 0 5 })
  else if o = 0x10 then writeIf (decide (v.toNat < 2 ^ 32)) s
  else if o = 0x20 then writeIf (decide (v.toNat < 2 ^ 48)) s
  else if o = 0x18 then writeIf (decide (v.toNat < 2 ^ 32)) (s.setField f { x with trcons := v.extractLsb' 0 32 })
  else if o = 0x28 then writeIf (decide (v.toNat < 2 ^ 16)) (s.setField f { x with trfire := v.extractLsb' 0 16 })
  else if 0x40 ≤ o ∧ o < 0x80 then
    writeIf (wbits v 62 33 == 0 && !wbit v 16) (s.setField f { x with trsel := x.trsel.setIfInBounds ((o - 0x40) / 8) v })
  else .refused

/-- A write of a field's energy block (R414). -/
def State.writeEnergy (s : State) (f o : Nat) (v : Word) : WriteRes :=
  let x := s.field f
  if o = 0x08 then
    writeIf (decide (16 ≤ v.toNat) && decide (v.toNat ≤ 26)) (s.setField f { x with ewin := v.extractLsb' 0 5 })
  else if o = 0x10 then writeIf (decide (v.toNat < 2 ^ 32)) (s.setField f { x with esoft := v.extractLsb' 0 32 })
  else if o = 0x18 then writeIf (decide (v.toNat < 2 ^ 32)) (s.setField f { x with ehard := v.extractLsb' 0 32 })
  else if o = 0x28 then writeIf (decide (v.toNat < 2 ^ 12)) (s.setField f { x with ejsel := v.extractLsb' 0 12 })
  else if o = 0x20 then writeIf (wbits v 31 2 == 0) s
  else if o = 0x38 then writeIf (wbits v 31 1 == 0) s
  else if o < 0x60 then .done s
  else .refused

/-- A write of a Niesk port's registers (R392). -/
def State.writePort (s : State) (q o : Nat) (v : Word) : WriteRes :=
  let y := s.quay q
  if o = 0x00 then
    writeIf (wbits v 63 48 == 0 && wbits v 15 1 == 0)
      (s.setQuay q { y with deadto := v.extractLsb' 32 16, etype := v.extractLsb' 16 16, en := wbit v 0 })
  else if o = 0x28 then writeIf (decide (v.toNat < 2 ^ 48)) (s.setQuay q { y with nppeer := v.extractLsb' 0 48 })
  else if o = 0x08 then writeIf (decide (v.toNat < 4)) s
  else if o < 0x28 then writeIf (decide (v.toNat < 2 ^ 48)) s
  else .refused

/-- A write of the registers of the whole module at MSBASE + 0x2_0000 (R315, R319, R326, R358, R361, R391). -/
def State.writeModule (s : State) (o : Nat) (v : Word) : WriteRes :=
  match o with
  | 0x08 => writeIf (decide (v.toNat < 2 ^ 56)) { s with shootva := v.extractLsb' 0 56 }
  | 0x30 => writeIf (decide (v.toNat < 2 ^ 16)) { s with sethr := v.extractLsb' 0 16 }
  | 0x20 => writeIf (decide (v.toNat < 2 ^ 32)) s
  | 0x58 => writeIf (decide (v.toNat < 2 ^ 48)) s
  | 0x00 | 0x10 | 0x18 | 0x28 | 0x38 | 0x40 | 0x48 | 0x50 => .own
  | _ => .refused

/-- A write at an offset of the memory-system register block. -/
def State.writeMs (s : State) (o : Nat) (v : Word) : WriteRes :=
  if o < 0x400 then .own
  else if 0x10000 ≤ o ∧ o < 0x20000 then writeIf (if o % 64 < 0x28 then decide (v.toNat < 2 ^ 48) else v == 0) s
  else if 0x20000 ≤ o ∧ o < 0x20060 then s.writeModule (o - 0x20000) v
  else if 0x30000 ≤ o ∧ o < 0x30200 then .done s
  else if 0x40000 ≤ o ∧ o < 0x41000 then s.writeArb ((o - 0x40000) / 0x40) (o % 0x40) v
  else if 0x50000 ≤ o ∧ o < 0x50800 then s.writePort ((o - 0x50000) / 0x40) (o % 0x40) v
  else if 0x50800 ≤ o ∧ o < 0x51000 then
    writeIf (decide (v.toNat < 32)) { s with npsel := s.npsel.setIfInBounds ((o - 0x50800) / 8) (v.extractLsb' 0 5) }
  else if 0x60000 ≤ o ∧ o < 0x64000 then s.writeTrace ((o - 0x60000) / 0x100) (o % 0x100) v
  else if 0x70000 ≤ o ∧ o < 0x74000 then s.writeEnergy ((o - 0x70000) / 0x100) (o % 0x100) v
  else if 0x400000 ≤ o ∧ o < 0x600000 then writeIf (if o % 16 = 0 then wbits v 63 59 == 0 else wbits v 63 49 == 0) s
  else if isRouter o then
    writeIf (if o % 0x40 < 0x20 then wbits v 62 32 == 0 else decide (o % 0x40 = 0x20) && decide (v.toNat < 2 ^ 32)) s
  else if isDetour o then .done s
  else if isDebug o then s.writeDebug ((o - 0x40000000) / 0x4000) (o % 0x4000) v
  else .refused

/-- A write at a Filhus physical address outside the memory tiers and the PCIe windows (R417). -/
def State.writeReg (s : State) (addr : Nat) (v : Word) : WriteRes :=
  if addr % 8 ≠ 0 then .refused
  else if msBase ≤ addr ∧ addr < msBase + 2 ^ 32 then s.writeMs (addr - msBase) v
  else if jtBase ≤ addr ∧ addr < jtBase + 4096 then s.writeJob (addr - jtBase) v
  else if addr = crBase then .own
  else if addr = crBase + 8 then
    writeIf (decide (v.toNat < 2 ^ 44)) { s with cairn := { s.cairn with arg := v.extractLsb' 0 44 } }
  else if addr = crBase + 16 then writeIf (decide (v.toNat < 2 ^ 19) && wbits v 7 1 == 0) s
  else .refused

/-- R11: a write to a register that has no behaviour of its own. A write that sets a reserved field, or that its table refuses, gets an
error response and changes nothing (R13). -/
def execRegisterWrite (addr : Nat) (v : Word) (s : State) : Host.Outcome State Fault Refusal :=
  if !s.booted || populated addr || inPcie addr then .next s
  else match s.writeReg addr v with
    | .own => .next s
    | .refused => s.deny
    | .done s => finish s.accept

/-! ### PCIe (R431) -/

/-- The physical addresses of an inbound transaction's bytes; none when the IOMMU refuses one or it lies outside the memory tiers. -/
def pciePlaces (x : PcieTx) : Option (List Nat) :=
  let l := (List.range x.bytes.length).map fun i => Config.iommu x.port (x.addr + i)
  if l.all fun p => match p with | some pa => populated pa | none => false then some (l.filterMap id) else none

/-- R431: an inbound transaction reads or writes the memory tiers, or is answered Unsupported Request. -/
def execPcieInbound (x : PcieTx) (s : State) : Host.Outcome State Fault Refusal :=
  if !s.booted then .next s
  else match pciePlaces x with
    | none => finish { s with pcie := s.pcie ++ [none] }
    | some ps =>
      if x.write then
        let s := (ps.zip x.bytes).foldl (fun (s : State) ab => s.pwrite ab.1 [ab.2]) s
        finish { s with pcie := s.pcie ++ [some []] }
      else finish { s with pcie := s.pcie ++ [some (ps.map s.pb)] }

end Sys2Proof.Machine
end

