-- ==== Sys2Proof/Machine/Cairn.lean ====
section
/-!
DEFINITION. Machine/Cairn.lean: power and heat (R432 to R434), boot (R419, R422, R423, R426), the feature token (R425), the cairn
mailbox and attestation (R424, R427 to R429) and the management port (R430).
-/
namespace Sys2Proof.Machine

/-! ### The feature token (R425) -/

/-- The surplus tiles that a token's map names. -/
def tokenTiles (bs : List Byte) : List (BitVec 17) :=
  (List.range 4096).filterMap fun i =>
    if (bs.getD (24 + i / 8) 0).getLsbD (i % 8) then some (BitVec.ofNat 17 (2048 * (i / 64) + 1024 + i % 64)) else none

/-- Whether a surplus index names a GOOD skipped column (R419, R425). -/
def surplusGood (t : BitVec 17) : Bool :=
  let f := fieldOf t.toNat
  let k := indexOf t.toNat - 1024
  (Config.repairGood f (k / 2)).getLsbD (if k % 2 = 0 then skip0 f (k / 2) else skip1 f (k / 2))

/-- The check of a token: 0 when it is accepted, else the result code of R428. -/
def State.tokenCheck (s : State) (bs : List Byte) : Nat :=
  if !Config.tokenVerifies (bs.take 536) ((bs.drop 536).take 64) then 2
  else if (List.range 16).any fun i => bs.getD (8 + i) 0 != Config.serial i then 3
  else if (bs.getD 6 0).toNat < s.cairn.grade.toNat then 4
  else if (tokenTiles bs).any fun t => !surplusGood t then 5
  else 0

/-! ### Power and heat (R432, R433) -/

/-- Every field changed. -/
def State.eachField (s : State) (f : Field → Field) : State :=
  (List.range 64).foldl (fun s k => s.setField k (f (s.field k))) s

/-- R432: the module's draw passes 38 kW, or 40 kW: SOFT, and above 40 kW HARD too, is held in every field. -/
def execPowerOverload (hard : Bool) (s : State) : Host.Outcome State Fault Refusal :=
  if s.booted then finish (s.eachField fun f => { f with holdSoft := true, holdHard := f.holdHard || hard }) else .next s

/-- R432: the draw falls back below 40 kW, or below 38 kW. -/
def execPowerOverloadEnd (hard : Bool) (s : State) : Host.Outcome State Fault Refusal :=
  if s.booted then finish (s.eachField fun f => { f with holdSoft := f.holdSoft && hard, holdHard := false }) else .next s

/-- What the cairn controller keeps without power: fuses, log, token and boot count (R422, R423, R428, R429). -/
def Cairn.kept (c : Cairn) : Cairn := { grade := c.grade, logfull := decide (1024 ≤ c.log.length), log := c.log, token := c.token, boots := c.boots }

/-- The module without power: everything volatile is lost. -/
def State.unpowered (s : State) : State :=
  { State.reset with schedule := s.schedule, fresh := s.fresh, uid := s.uid, cairn := s.cairn.kept }

/-- R432: the supply stays below 48 V, and every volatile state is lost. -/
def execUndervoltage (s : State) : Host.Outcome State Fault Refusal := finish s.unpowered

/-- Every field powered off: what tiles, routers and spurs hold and what is in flight is lost, and with it every job; a retired tile stays
retired, and its router dead (R375, R433). -/
def State.fieldsOff (s : State) : State :=
  { s with tiles := (s.tiles.filter fun (kx : Nat × Tile) => kx.2.retired).map fun kx => (kx.1, { retired := true })
           routers := (s.routers.filter fun (kx : Nat × Router) => kx.2.dead).map fun kx => (kx.1, { dead := true, gen := kx.2.gen })
           spurs := [], fields := [], nodes := [], reductions := [], packets := [], arrivals := [], waiters := [], notices := [], replies := [], cpWalks := [], jobs := [], diverged := [], refresh := [],
           genBusy := false, retireBusy := false,
           quays := s.quays.map fun (kx : Nat × Quay) =>
             (kx.1, { kx.2 with walks := [], walkQ := [], ranges := [], falls := [], egress := [], seen := [] }) }

/-- R433: a field's sensor passes 95 °C: HARD is held in that field; one that passes 105 °C powers every field off. Either is posted as
record 0x24. -/
def execThermalEvent (f tenths : Nat) (s : State) : Host.Outcome State Fault Refusal :=
  if !s.booted || decide (tenths ≤ 950) then .next s
  else
    let s := { s with cairn := { s.cairn with wafer := BitVec.ofNat 16 tenths } }
    let s := s.postOrphan { typ := 0x24, w4 := BitVec.ofNat 64 f, w5 := BitVec.ofNat 64 tenths } false
    if 1050 < tenths then finish s.fieldsOff
    else finish (s.setField f { s.field f with holdHeat := true })

/-- R433: the sensor of a field falls below 90 °C. -/
def execThermalHoldEnd (f : Nat) (s : State) : Host.Outcome State Fault Refusal :=
  if s.booted then finish (s.setField f { s.field f with holdHeat := false }) else .next s

/-! ### Boot (R426) -/

/-- A boot that stops at a step. -/
def State.bootFails (s : State) (step : Nat) : State :=
  { s with cairn := { s.cairn with step := BitVec.ofNat 8 step, cause := Config.bootCause s.cairn.boots.toNat step } }

/-- Step 3: the log and the grade are applied, and the token is checked (R419, R422, R423, R425). -/
def State.applyRepair (s : State) : State :=
  let lost (t : Nat) : Bool := (indexOf t < 1024 && failedTile (fieldOf t) (indexOf t)) || s.cairn.log.contains (BitVec.ofNat 17 t)
  let ts := (List.range 131072).filter fun t => decide (indexOf t < 1088) && lost t
  let s := (ts.foldl State.powerOffTile s).checkGrade
  match s.cairn.token with
  | none => s
  | some bs =>
    let r := s.tokenCheck bs
    { s with cairn := { s.cairn with tokenRes := BitVec.ofNat 8 r, tokenOk := r = 0,
                                     surplus := if r = 0 then tokenTiles bs else [] } }

/-- Step 5 for one field: its clock and power, the links that train, and its sweep. -/
def State.bringUp (s : State) (f : Nat) : State :=
  let s := s.setField f { s.field f with powered := true }
  (List.range 1024).foldl (fun s i =>
    ([.n, .e, .s, .w] : List Port).foldl (fun s p =>
      if Config.linkTrains s.cairn.boots.toNat (2048 * f + i) p.num.val then s else s.cutLink (2048 * f + i) p) s) s

/-- The boot of a module from which power was away (R426). -/
def State.boot (s : State) : State :=
  let s := s.unpowered
  let s := { s with cairn := { s.cairn with boots := s.cairn.boots + 1 } }
  let n := s.cairn.boots.toNat
  if !Config.bootPasses n 1 then s.bootFails 1
  else if !Config.bootPasses n 2 then s.bootFails 2
  else
    let s := s.applyRepair
    if !Config.bootPasses n 4 then s.bootFails 4
    else
      let s := (List.range 64).foldl State.bringUp s
      let s := (List.range 64).foldl State.sweepField s
      let s := s.putBytes (2 ^ 43) ((List.range (min Config.firmwareSize (2 ^ 43))).map Config.firmware)
      { s with booted := true, cairn := { s.cairn with step := 6 } }

/-- R426: applying power runs the boot, which ends with the Filhus cores released. -/
def execPowerOn (s : State) : Host.Outcome State Fault Refusal := if s.booted then .next s else finish s.boot

/-! ### Commands (R424, R428, R429) -/

/-- Whether the cairn controller is at work on a retirement (R422, R424). -/
def State.cairnBusy (s : State) : Bool := s.retireBusy

/-- The bytes of a counted list of Config bytes. -/
def cfgBytes (f : Nat → Byte) (n : Nat) : List Byte := (List.range n).map f

/-- The surplus map in force, as the token gives it (R425). -/
def State.surplusMap (s : State) : List Byte :=
  (List.range 512).map fun i => BitVec.ofNat 8 ((List.range 8).foldl (fun a b =>
    let k := 8 * i + b
    a + b2n (s.cairn.surplus.contains (BitVec.ofNat 17 (2048 * (k / 64) + 1024 + k % 64))) * 2 ^ b) 0)

/-- The retirement log as CMD 3 writes it (R428). -/
def State.logBytes (s : State) : List Byte :=
  (List.range 1024).flatMap fun i => match s.cairn.log[i]? with
    | some t => leBytes 4 t.toNat
    | none => leBytes 4 0xFFFFFFFF

/-- The attestation report over a nonce (R429). -/
def State.report (s : State) (nonce : List Byte) : List Byte :=
  let n := s.cairn.boots.toNat
  let map := if s.cairn.tokenOk then cfgBytes (Config.sm3 s.surplusMap) 32 else List.replicate 32 0
  let body := leBytes 4 0x5441574A ++ leBytes 2 1 ++ [s.cairn.grade.setWidth 8, s.gen] ++ cfgBytes Config.serial 16
    ++ (List.range 32).map (fun i => nonce.getD i 0)
    ++ cfgBytes (Config.cairnDigest n) 32 ++ cfgBytes (Config.filhusDigest n) 32 ++ map
    ++ cfgBytes (Config.sm3 s.logBytes) 32 ++ leBytes 4 s.cairn.log.length ++ leBytes 4 n
  body ++ cfgBytes (Config.deviceSign body) 64

/-- The repair words and the log (R428): GOOD of a row stands in [33:0] of its word. -/
def State.mapBytes (s : State) : List Byte :=
  (List.range 2048).flatMap (fun k =>
    leBytes 8 ((Config.repairGood (k / 32) (k % 32)).toNat + (Config.repairRest (BitVec.ofNat 6 (skip0 (k / 32) (k % 32))) (BitVec.ofNat 6 (skip1 (k / 32) (k % 32)))).toNat * 2 ^ 34)) ++ s.logBytes

/-- The serial, the device's public key and Jouren's signature (R428). -/
def certBytes : List Byte := cfgBytes Config.serial 16 ++ cfgBytes Config.devicePublicKey 64 ++ cfgBytes Config.deviceCert 64

/-- The temperatures as the sensors give them when they are asked for (R428). -/
def State.readSensors (s : State) : State :=
  { s with fresh := s.fresh + 2,
           cairn := { s.cairn with inlet := Config.temperature s.fresh, wafer := Config.temperature (s.fresh + 1) } }

/-- The 16 bytes of STATUS (R428). -/
def State.statusBytes (s : State) : List Byte :=
  let c := s.cairn
  cfgBytes (Config.statusByte c.step c.cause c.tokenRes c.inlet c.wafer) 16

/-- A write of CRCMD with a command: a reserved bit, and a busy controller, make it an error response (R427); the buffer of `size`
bytes is checked (R428). -/
def State.mailbox (s : State) (v : Word) (ok : Bool) (size : Nat) (f : Nat → State → State × Nat) : Host.Outcome State Fault Refusal :=
  if !s.booted || !ok then .next s
  else if wbits v 63 8 ≠ 0 ∨ s.cairnBusy then s.deny
  else
    let s := s.accept
    let s := { s with cairn := { s.cairn with cmd := v.extractLsb' 0 8 } }
    let a := s.cairn.arg.toNat
    let (s, r) := if size ≠ 0 && (a % 64 != 0 || !populatedRun a size) then (s, 7) else f a s
    finish { s with cairn := { s.cairn with res := BitVec.ofNat 8 r } }

/-- R429: CRCMD 1 writes a signed attestation report over the nonce in the buffer. -/
def execAttest (v : Word) (s : State) : Host.Outcome State Fault Refusal :=
  s.mailbox v (wbits v 7 0 == 1) 256 fun a s => (s.pwrite a (s.report (s.pbytes a 32)), 0)

/-- R428: CRCMD 2 verifies a feature token and stores it for the next boot. -/
def execToken (v : Word) (s : State) : Host.Outcome State Fault Refusal :=
  s.mailbox v (wbits v 7 0 == 2) 600 fun a s =>
    let bs := s.pbytes a 600
    let r := s.tokenCheck bs
    (if r = 0 then { s with cairn := { s.cairn with token := some bs } } else s, r)

/-- R428: CRCMD 3 writes the repair words and the retirement log. -/
def execMap (v : Word) (s : State) : Host.Outcome State Fault Refusal :=
  s.mailbox v (wbits v 7 0 == 3) 20480 fun a s => (s.pwrite a s.mapBytes, 0)

/-- R428: CRCMD 4 writes the serial, the device's public key and Jouren's signature. -/
def execCert (v : Word) (s : State) : Host.Outcome State Fault Refusal :=
  s.mailbox v (wbits v 7 0 == 4) 144 fun a s => (s.pwrite a certBytes, 0)

/-- R428: CRCMD 5 writes the boot step and cause, the token's result and the temperatures. -/
def execStatus (v : Word) (s : State) : Host.Outcome State Fault Refusal :=
  s.mailbox v (wbits v 7 0 == 5) 16 fun a s =>
    let s := s.readSensors
    (s.pwrite a s.statusBytes, 0)

/-- R428: an unassigned command ends with RES 6. -/
def execCrcmdUnassigned (v : Word) (s : State) : Host.Outcome State Fault Refusal :=
  s.mailbox v (wbits v 7 0 == 0 || decide (5 < wbits v 7 0)) 0 fun _ s => (s, 6)

/-! ### The management port (R430) -/

/-- The reply to a management-port request: its RES and its output. -/
def State.mgmtReply (s : State) (cmd : Nat) (data : List Byte) : Nat × List Byte :=
  if s.cairnBusy then (1, [])
  else match cmd with
    | 1 => (0, s.report data)
    | 3 => (0, s.mapBytes)
    | 4 => (0, certBytes)
    | 5 => (0, s.statusBytes)
    | _ => (6, [])

/-- R430: a management-port frame carries a command, and its reply echoes the header with RES. It is answered also after a boot that
stopped (R426), and then only STATUS is. -/
def execMgmtRequest (m : MgmtFrame) (s : State) : Host.Outcome State Fault Refusal :=
  let cmd := wbits m.cmd 7 0
  if s.cairn.step = 0 ∨ (!s.booted ∧ cmd ≠ 5) then .next s
  else
    let s := if cmd = 5 then s.readSensors else s
    let (r, out) := s.mgmtReply cmd m.data
    let header := m.cmd.toNat % 2 ^ 40 + r * 2 ^ 40 + m.cmd.toNat / 2 ^ 48 * 2 ^ 48
    finish { s with cairn := { s.cairn with reply := leBytes 8 header ++ out } }

end Sys2Proof.Machine
end

