-- ==== Sys2Proof/Machine/ExecControl.lean ====
section
/-!
DEFINITION. Machine/ExecControl.lean: the meanings of the control and system instructions: each issues its slot, alone in its bundle, on the
current berth (R17, R21, R44).
-/
namespace Sys2Proof.Machine

/-- R52: Does nothing and belongs to no slot class; a bundle made only of NOPs still takes a sequence position. -/
def execNop (s : State) : Host.Outcome State Fault Refusal := issueOne .nop s

/-- R113: Always-taken transfer to the address in gA, with two delay bundles. -/
def execJmpi (a : GReg) (s : State) : Host.Outcome State Fault Refusal := issueOne (.jmpi a) s

/-- R113: Has the effect of JMPI to gA and is marked as a return in trace and sample records. -/
def execRet (a : GReg) (s : State) : Host.Outcome State Fault Refusal := issueOne (.ret a) s

/-- R123: Ends the binding after its bundle retires and returns the token to the ready queue with its IP set to the next bundle. -/
def execYield (s : State) : Host.Outcome State Fault Refusal := issueOne .yield s

/-- R123: Ends the binding after its bundle retires, releases the frame and frees the berth. -/
def execDone (s : State) : Host.Outcome State Fault Refusal := issueOne .done s

/-- R124: Retires its bundle and then raises the software trap with gA as detail; in the supervisor berth it posts the current trap record instead. -/
def execTrap (a : GReg) (s : State) : Host.Outcome State Fault Refusal := issueOne (.trap a) s

/-- R122: Checks and starts counter chain A[1:0] with first tag B[31:0]. -/
def execKchain (a : GReg) (b : GReg) (s : State) : Host.Outcome State Fault Refusal := issueOne (.kchain a b) s

/-- R222: Posts a request record to the job's service queue, or holds while that queue is full. -/
def execSys (a : GReg) (b : GReg) (s : State) : Host.Outcome State Fault Refusal := issueOne (.sys a b) s

/-- R223: Retires its bundle and then raises the breakpoint trap with gA as detail. -/
def execBrk (a : GReg) (s : State) : Host.Outcome State Fault Refusal := issueOne (.brk a) s

/-- R221: Retires and clears the berth's wait latch when the latch is set, and otherwise holds the berth until it is set. -/
def execWfe (s : State) : Host.Outcome State Fault Refusal := issueOne .wfe s

/-- R353: Supervisor transfer that, after its delay bundles, resumes, ends or yields the berth named by SBERTH.BERTH, as its save area's DISP selects. -/
def execEret (s : State) : Host.Outcome State Fault Refusal := issueOne .eret s

/-- R224: Supervisor invalidation of translations, with the extent selected by B[1:0]. -/
def execTlbi (a : GReg) (b : GReg) (s : State) : Host.Outcome State Fault Refusal := issueOne (.tlbi a b) s

/-- R224: Supervisor pre-emption of job berth A[1:0]: it stops the berth and its macros and starts the berth's save. -/
def execTpre (a : GReg) (s : State) : Host.Outcome State Fault Refusal := issueOne (.tpre a) s

/-- R224: Stops the tile, keeping all state for observation. -/
def execHalt (s : State) : Host.Outcome State Fault Refusal := issueOne .halt s

/-- R113: Always-taken PC-relative branch with two delay bundles. -/
def execBr (disp : Disp) (s : State) : Host.Outcome State Fault Refusal := issueOne (.br disp) s

/-- R113: PC-relative branch that lands its link address in gD in one bundle. -/
def execCall (d : GReg) (disp : Disp) (s : State) : Host.Outcome State Fault Refusal := issueOne (.call d disp) s

/-- R113: Always-taken jump to the window base plus DISP × 4. -/
def execJmp (disp : Disp) (s : State) : Host.Outcome State Fault Refusal := issueOne (.jmp disp) s

/-- R113: Branch taken when gD is 0. -/
def execBrnZ (d : GReg) (disp : Disp) (s : State) : Host.Outcome State Fault Refusal := issueOne (.brnZ d disp) s

/-- R113: Branch taken when gD is not 0. -/
def execBrnNz (d : GReg) (disp : Disp) (s : State) : Host.Outcome State Fault Refusal := issueOne (.brnNz d disp) s

/-- R54: Branch on predicate register pK under condition p, np, any or none. -/
def execBrnP (c : PCond) (k : PReg) (disp : Disp) (s : State) : Host.Outcome State Fault Refusal := issueOne (.brnP c k disp) s

/-- R116: Opens a hardware loop whose iteration count is in gD. -/
def execLoop (d : GReg) (disp : Disp) (s : State) : Host.Outcome State Fault Refusal := issueOne (.loop d disp) s

/-- R116: Opens a hardware loop with an immediate count of 1 to 64. -/
def execLoopi (n : BitVec 6) (disp : Disp) (s : State) : Host.Outcome State Fault Refusal := issueOne (.loopi n disp) s

end Sys2Proof.Machine
end

