-- ==== Sys2Proof/Machine/ExecMacro.lean ====
section
/-!
DEFINITION. Machine/ExecMacro.lean: the meanings of the macro instructions: each issues its slot, alone in its bundle, on the
current berth (R17, R21, R44).
-/
namespace Sys2Proof.Machine

/-- R179: Queues a load of the stationary weight tile into the matrix array. -/
def execTlw (v : MVar) (m : MReg) (a : GReg) (s : State) : Host.Outcome State Fault Refusal := issueOne (.tlw v m a) s

/-- R180: Queues a dense-tile multiply that accumulates into z(ZSEL). -/
def execTmm (v : MVar) (m : MReg) (a : GReg) (s : State) : Host.Outcome State Fault Refusal := issueOne (.tmm v m a) s

/-- R185: Queues a multiply of expert-tagged rows, in tag runs, with buffer management. -/
def execTmmg (v : MVar) (m : MReg) (a : GReg) (s : State) : Host.Outcome State Fault Refusal := issueOne (.tmmg v m a) s

/-- R183: Queues the ranking of gate scores and the writing of rank and chosen masks. -/
def execTrank (v : RVar) (m : MReg) (a : GReg) (s : State) : Host.Outcome State Fault Refusal := issueOne (.trank v m a) s

/-- R180: Queues a sparse-tile multiply into z(ZSEL). -/
def execTspz (v : MVar) (m : MReg) (a : GReg) (s : State) : Host.Outcome State Fault Refusal := issueOne (.tspz v m a) s

/-- R182: Queues the drain of z(ZSEL) to Y, with an optional clear and an optional publication. -/
def execTdr (v : MVar) (m : MReg) (a : GReg) (s : State) : Host.Outcome State Fault Refusal := issueOne (.tdr v m a) s

/-- R181: Queues the zeroing of z tile A[1:0]. -/
def execTz (m : MReg) (a : GReg) (s : State) : Host.Outcome State Fault Refusal := issueOne (.tz m a) s

/-- R184: Writes SHAPE0–SHAPE3 from the window and marks the handle DONE. -/
def execTshape (m : MReg) (a : GReg) (s : State) : Host.Outcome State Fault Refusal := issueOne (.tshape m a) s

/-- R187: Queues an indexed gather. -/
def execGath (e : ESize) (m : MReg) (a : GReg) (s : State) : Host.Outcome State Fault Refusal := issueOne (.gath e m a) s

/-- R187: Queues an indexed scatter. -/
def execScat (e : ESize) (m : MReg) (a : GReg) (s : State) : Host.Outcome State Fault Refusal := issueOne (.scat e m a) s

/-- R186: Queues a linear copy on copy queue QSEL. -/
def execCopy (e : ESize) (m : MReg) (a : GReg) (s : State) : Host.Outcome State Fault Refusal := issueOne (.copy e m a) s

/-- R186: Queues a two-dimensional strided copy. -/
def execCopy2 (e : ESize) (m : MReg) (a : GReg) (s : State) : Host.Outcome State Fault Refusal := issueOne (.copy2 e m a) s

/-- R186: Queues a fill of memory with a pattern. -/
def execSetm (e : ESize) (m : MReg) (a : GReg) (b : GReg) (s : State) : Host.Outcome State Fault Refusal := issueOne (.setm e m a b) s

/-- R188: Enters the named queues and completes once every earlier operation in them is performed at scope S. -/
def execQfence (sc : Scope) (m : MReg) (a : GReg) (s : State) : Host.Outcome State Fault Refusal := issueOne (.qfence sc m a) s

/-- R189: Holds the berth until handle mH is neither QUEUED nor RUNNING. -/
def execMwait (m : MReg) (s : State) : Host.Outcome State Fault Refusal := issueOne (.mwait m) s

/-- R190: Lands the handle's progress register in gD. -/
def execMprg (d : GReg) (m : MReg) (s : State) : Host.Outcome State Fault Refusal := issueOne (.mprg d m) s

/-- R190: Lands the handle's status register in gD, joining the macro's writes when it reads DONE. -/
def execMstat (d : GReg) (m : MReg) (s : State) : Host.Outcome State Fault Refusal := issueOne (.mstat d m) s

/-- R192: Resumes a suspended, faulted or stopped macro from PROG. -/
def execMres (m : MReg) (a : GReg) (s : State) : Host.Outcome State Fault Refusal := issueOne (.mres m a) s

/-- R191: Requests a stop that leaves the macro KILLED. -/
def execMkill (m : MReg) (s : State) : Host.Outcome State Fault Refusal := issueOne (.mkill m) s

end Sys2Proof.Machine
end

