-- ==== Sys2Proof/Machine/ExecMemory.lean ====
section
/-!
DEFINITION. Machine/ExecMemory.lean: the meanings of the memory instructions: each issues its slot, alone in its bundle, on the
current berth (R17, R21, R44).
-/
namespace Sys2Proof.Machine

/-- R135: Offset-form load of 1 to 16 bytes, zero-extended, landing at LAND. -/
def execLd (wd : LdW) (l : Land) (d : GReg) (a : GReg) (ofs : Ofs) (s : State) : Host.Outcome State Fault Refusal := issueOne (.ld wd l d a ofs) s

/-- R135: Indexed-form load with address gA + gB. -/
def execLdIndexed (wd : LdW) (l : Land) (d : GReg) (a : GReg) (b : GReg) (s : State) : Host.Outcome State Fault Refusal := issueOne (.ldIndexed wd l d a b) s

/-- R135: Offset-form sign-extending load of 1, 2 or 4 bytes. -/
def execLds (wd : LdsW) (l : Land) (d : GReg) (a : GReg) (ofs : Ofs) (s : State) : Host.Outcome State Fault Refusal := issueOne (.lds wd l d a ofs) s

/-- R135: Indexed-form sign-extending load. -/
def execLdsIndexed (wd : LdsW) (l : Land) (d : GReg) (a : GReg) (b : GReg) (s : State) : Host.Outcome State Fault Refusal := issueOne (.ldsIndexed wd l d a b) s

/-- R135: Offset-form store of 1 to 16 bytes. -/
def execSt (wd : LdW) (d : GReg) (a : GReg) (ofs : Ofs) (s : State) : Host.Outcome State Fault Refusal := issueOne (.st wd d a ofs) s

/-- R135: Indexed-form store. -/
def execStIndexed (wd : LdW) (d : GReg) (a : GReg) (b : GReg) (s : State) : Host.Outcome State Fault Refusal := issueOne (.stIndexed wd d a b) s

/-- R148: Reads the lock of a tag granule. -/
def execTagld (l : Land) (d : GReg) (a : GReg) (ofs : Ofs) (s : State) : Host.Outcome State Fault Refusal := issueOne (.tagld l d a ofs) s

/-- R148: Sets the lock of a tag granule at its home and logs the change in the retag log. -/
def execTagst (d : GReg) (a : GReg) (ofs : Ofs) (s : State) : Host.Outcome State Fault Refusal := issueOne (.tagst d a ofs) s

/-- R145: Multicast store of 8 bytes to every replica of the page's replica group. -/
def execMcst (d : GReg) (a : GReg) (ofs : Ofs) (s : State) : Host.Outcome State Fault Refusal := issueOne (.mcst d a ofs) s

/-- R136: Loads 64 bytes into a v register through the linear view or from global memory. -/
def execLdv (l : Land) (d : VReg) (a : GReg) (ofs : Ofs) (s : State) : Host.Outcome State Fault Refusal := issueOne (.ldv l d a ofs) s

/-- R136: Stores a v register as 64 bytes. -/
def execStv (d : VReg) (a : GReg) (ofs : Ofs) (s : State) : Host.Outcome State Fault Refusal := issueOne (.stv d a ofs) s

/-- R136: Loads 64 bytes of the window through the swizzled view. -/
def execLdx (l : Land) (d : VReg) (a : GReg) (ofs : Ofs) (s : State) : Host.Outcome State Fault Refusal := issueOne (.ldx l d a ofs) s

/-- R136: Stores 64 bytes to the window through the swizzled view. -/
def execStx (d : VReg) (a : GReg) (ofs : Ofs) (s : State) : Host.Outcome State Fault Refusal := issueOne (.stx d a ofs) s

/-- R139: Scoped 8-byte load-acquire. -/
def execLdDAcq (sc : Scope) (l : Land) (d : GReg) (a : GReg) (ofs : Ofs) (s : State) : Host.Outcome State Fault Refusal := issueOne (.ldDAcq sc l d a ofs) s

/-- R139: Scoped 8-byte store-release. -/
def execStDRel (sc : Scope) (d : GReg) (a : GReg) (ofs : Ofs) (s : State) : Host.Outcome State Fault Refusal := issueOne (.stDRel sc d a ofs) s

/-- R143: Unordered read-modify-write at Home(ea) that returns the old value. -/
def execAmo (op : AmoOp) (wd : AmoW) (l : Land) (d : GReg) (a : GReg) (b : GReg) (s : State) : Host.Outcome State Fault Refusal := issueOne (.amo op wd l d a b) s

/-- R143: Scoped and ordered 8-byte read-modify-write, landing after 15 bundles. -/
def execAmos (op : AmoOp) (sc : Scope) (o : AmoOrd) (d : GReg) (a : GReg) (b : GReg) (s : State) : Host.Outcome State Fault Refusal := issueOne (.amos op sc o d a b) s

/-- R140: Release and acquire of scope S taken together. -/
def execFence (sc : Scope) (s : State) : Host.Outcome State Fault Refusal := issueOne (.fence sc) s

/-- R138: Applies the berth's scratchpad writes before any later access, joining the views. -/
def execVjoin (s : State) : Host.Outcome State Fault Refusal := issueOne .vjoin s

/-- R142: Prefetches a sector into the tile data cache without a visible effect. -/
def execPref (a : GReg) (s : State) : Host.Outcome State Fault Refusal := issueOne (.pref a) s

/-- R141: Writes dirty bytes below the scope's serving level back to that level. -/
def execFlush (sc : Scope) (a : GReg) (b : GReg) (s : State) : Host.Outcome State Fault Refusal := issueOne (.flush sc a b) s

/-- R141: Flushes, then invalidates, the copies held below the scope's serving level. -/
def execInval (sc : Scope) (a : GReg) (b : GReg) (s : State) : Host.Outcome State Fault Refusal := issueOne (.inval sc a b) s

/-- R144: Read-modify-write at Home(ea) that returns nothing. -/
def execRed (op : RedOp) (wd : AmoW) (a : GReg) (b : GReg) (s : State) : Host.Outcome State Fault Refusal := issueOne (.red op wd a b) s

end Sys2Proof.Machine
end

