-- ==== Sys2Proof/Machine/ExecNet.lean ====
section
/-!
DEFINITION. Machine/ExecNet.lean: the meanings of the name, task and event instructions: each issues its slot, alone in its bundle, on the
current berth (R17, R21, R44).
-/
namespace Sys2Proof.Machine

/-- R201: Stages and publishes one message under a name and a tag. -/
def execPub (d : GReg) (a : GReg) (b : GReg) (s : State) : Host.Outcome State Fault Refusal := issueOne (.pub d a b) s

/-- R203: Subscribes a frame slot to a range of names; its status lands when the last summit has answered. -/
def execSubNet (l : Land) (d : GReg) (a : GReg) (b : GReg) (s : State) : Host.Outcome State Fault Refusal := issueOne (.subNet l d a b) s

/-- R204: Removes an equal subscription. -/
def execUnsub (l : Land) (d : GReg) (a : GReg) (b : GReg) (s : State) : Host.Outcome State Fault Refusal := issueOne (.unsub l d a b) s

/-- R211: Queues the steering of rows to expert names as an egress macro. -/
def execSteer (d : GReg) (a : GReg) (b : GReg) (s : State) : Host.Outcome State Fault Refusal := issueOne (.steer d a b) s

/-- R212: Queues the combination of expert records back into token order as an egress macro. -/
def execMerge (d : GReg) (a : GReg) (b : GReg) (s : State) : Host.Outcome State Fault Refusal := issueOne (.merge d a b) s

/-- R213: Writes the tile's 64 steer counters to the window and clears them. -/
def execStsnap (a : GReg) (s : State) : Host.Outcome State Fault Refusal := issueOne (.stsnap a) s

/-- R205: Sends a stream message once the send window allows it. -/
def execSend (d : GReg) (a : GReg) (b : GReg) (s : State) : Host.Outcome State Fault Refusal := issueOne (.send d a b) s

/-- R205: Grants flits of credit to a stream's sender. -/
def execGrant (a : GReg) (b : GReg) (s : State) : Host.Outcome State Fault Refusal := issueOne (.grant a b) s

/-- R220: Captures the barrier generation, releases, and sends the arrival to the object's home. -/
def execArrive (a : GReg) (s : State) : Host.Outcome State Fault Refusal := issueOne (.arrive a) s

/-- R206: Allocates a frame on the tile and lands its index. -/
def execFrame (l : Land) (d : GReg) (a : GReg) (b : GReg) (s : State) : Host.Outcome State Fault Refusal := issueOne (.frame l d a b) s

/-- R207: Fills a slot of a frame on the tile. -/
def execFslot (d : GReg) (a : GReg) (b : GReg) (s : State) : Host.Outcome State Fault Refusal := issueOne (.fslot d a b) s

/-- R208: Creates a frame of a template on the tile that the placement map gives. -/
def execSpawn (a : GReg) (b : GReg) (s : State) : Host.Outcome State Fault Refusal := issueOne (.spawn a b) s

/-- R209: Forms a tag from a tag and an iteration increment. -/
def execTagop (l : Land) (d : GReg) (a : GReg) (b : GReg) (s : State) : Host.Outcome State Fault Refusal := issueOne (.tagop l d a b) s

/-- R214: EVCFG with A[63] = 0: loads parameter set A[5:0] from 32 window bytes. -/
def execEvcfgPset (a : GReg) (b : GReg) (s : State) : Host.Outcome State Fault Refusal := issueOne (.evcfgPset a b) s

/-- R214: EVCFG with A[63] = 1: writes value B to a range of neuron entries. -/
def execEvcfgEntries (a : GReg) (b : GReg) (s : State) : Host.Outcome State Fault Refusal := issueOne (.evcfgEntries a b) s

/-- R215: Posts a weighted, timestamped event to a neuron. -/
def execEvpost (d : GReg) (a : GReg) (b : GReg) (s : State) : Host.Outcome State Fault Refusal := issueOne (.evpost d a b) s

/-- R216: Lands a neuron entry as stored. -/
def execEvrd (l : Land) (d : GReg) (a : GReg) (s : State) : Host.Outcome State Fault Refusal := issueOne (.evrd l d a) s

/-- R217: Brings a range of entries to the current tick, writes them to the window, and optionally clears them. -/
def execEvsnap (a : GReg) (b : GReg) (s : State) : Host.Outcome State Fault Refusal := issueOne (.evsnap a b) s

/-- R218: Advances the bank's tick and applies the events that are due. -/
def execEvtick (a : GReg) (s : State) : Host.Outcome State Fault Refusal := issueOne (.evtick a) s

end Sys2Proof.Machine
end

