-- ==== Sys2Proof/Machine/ExecScalar.lean ====
section
/-!
DEFINITION. Machine/ExecScalar.lean: the meanings of the scalar, floating-point and special-register instructions: each issues its slot, alone in its bundle, on the
current berth (R17, R21, R44).
-/
namespace Sys2Proof.Machine

/-- R106: Lands a + b in gD. -/
def execAdd (d : GReg) (a : GReg) (b : GReg) (s : State) : Host.Outcome State Fault Refusal := issueOne (.add d a b) s

/-- R106: Lands a − b in gD. -/
def execSub (d : GReg) (a : GReg) (b : GReg) (s : State) : Host.Outcome State Fault Refusal := issueOne (.sub d a b) s

/-- R106: Lands the low 64 bits of a × b in gD after 3 bundles. -/
def execMul (d : GReg) (a : GReg) (b : GReg) (s : State) : Host.Outcome State Fault Refusal := issueOne (.mul d a b) s

/-- R106: Lands the high half of the signed product in gD. -/
def execMulh (d : GReg) (a : GReg) (b : GReg) (s : State) : Host.Outcome State Fault Refusal := issueOne (.mulh d a b) s

/-- R106: Lands the high half of the unsigned product in gD. -/
def execMulhu (d : GReg) (a : GReg) (b : GReg) (s : State) : Host.Outcome State Fault Refusal := issueOne (.mulhu d a b) s

/-- R106: Lands the signed quotient in gD after 20 bundles, with the zero-divisor results of R89. -/
def execDiv (d : GReg) (a : GReg) (b : GReg) (s : State) : Host.Outcome State Fault Refusal := issueOne (.div d a b) s

/-- R106: Lands the unsigned quotient in gD after 20 bundles. -/
def execDivu (d : GReg) (a : GReg) (b : GReg) (s : State) : Host.Outcome State Fault Refusal := issueOne (.divu d a b) s

/-- R106: Lands the signed remainder in gD after 20 bundles. -/
def execRem (d : GReg) (a : GReg) (b : GReg) (s : State) : Host.Outcome State Fault Refusal := issueOne (.rem d a b) s

/-- R106: Lands the unsigned remainder in gD after 20 bundles. -/
def execRemu (d : GReg) (a : GReg) (b : GReg) (s : State) : Host.Outcome State Fault Refusal := issueOne (.remu d a b) s

/-- R106: Lands the bitwise AND of a and b in gD. -/
def execAnd (d : GReg) (a : GReg) (b : GReg) (s : State) : Host.Outcome State Fault Refusal := issueOne (.and d a b) s

/-- R106: Lands the bitwise OR of a and b in gD. -/
def execOr (d : GReg) (a : GReg) (b : GReg) (s : State) : Host.Outcome State Fault Refusal := issueOne (.or d a b) s

/-- R106: Lands the bitwise XOR of a and b in gD. -/
def execXor (d : GReg) (a : GReg) (b : GReg) (s : State) : Host.Outcome State Fault Refusal := issueOne (.xor d a b) s

/-- R106: Lands a AND NOT b in gD. -/
def execAndn (d : GReg) (a : GReg) (b : GReg) (s : State) : Host.Outcome State Fault Refusal := issueOne (.andn d a b) s

/-- R106: Shifts a left by b[5:0]. -/
def execSll (d : GReg) (a : GReg) (b : GReg) (s : State) : Host.Outcome State Fault Refusal := issueOne (.sll d a b) s

/-- R106: Shifts a right logically by b[5:0]. -/
def execSrl (d : GReg) (a : GReg) (b : GReg) (s : State) : Host.Outcome State Fault Refusal := issueOne (.srl d a b) s

/-- R106: Shifts a right arithmetically by b[5:0]. -/
def execSra (d : GReg) (a : GReg) (b : GReg) (s : State) : Host.Outcome State Fault Refusal := issueOne (.sra d a b) s

/-- R106: Rotates a right by b[5:0]. -/
def execRor (d : GReg) (a : GReg) (b : GReg) (s : State) : Host.Outcome State Fault Refusal := issueOne (.ror d a b) s

/-- R108: Shifts a left by an immediate count held in B. -/
def execSllImm (d : GReg) (a : GReg) (n : BitVec 6) (s : State) : Host.Outcome State Fault Refusal := issueOne (.sllImm d a n) s

/-- R108: Shifts a right logically by an immediate count. -/
def execSrlImm (d : GReg) (a : GReg) (n : BitVec 6) (s : State) : Host.Outcome State Fault Refusal := issueOne (.srlImm d a n) s

/-- R108: Shifts a right arithmetically by an immediate count. -/
def execSraImm (d : GReg) (a : GReg) (n : BitVec 6) (s : State) : Host.Outcome State Fault Refusal := issueOne (.sraImm d a n) s

/-- R108: Rotates a right by an immediate count. -/
def execRorImm (d : GReg) (a : GReg) (n : BitVec 6) (s : State) : Host.Outcome State Fault Refusal := issueOne (.rorImm d a n) s

/-- R106: Counts the leading zero bits of a. -/
def execClz (d : GReg) (a : GReg) (s : State) : Host.Outcome State Fault Refusal := issueOne (.clz d a) s

/-- R106: Counts the trailing zero bits of a. -/
def execCtz (d : GReg) (a : GReg) (s : State) : Host.Outcome State Fault Refusal := issueOne (.ctz d a) s

/-- R106: Counts the one bits of a. -/
def execPopc (d : GReg) (a : GReg) (s : State) : Host.Outcome State Fault Refusal := issueOne (.popc d a) s

/-- R106: Lands the signed minimum of a and b. -/
def execMin (d : GReg) (a : GReg) (b : GReg) (s : State) : Host.Outcome State Fault Refusal := issueOne (.min d a b) s

/-- R106: Lands the signed maximum of a and b. -/
def execMax (d : GReg) (a : GReg) (b : GReg) (s : State) : Host.Outcome State Fault Refusal := issueOne (.max d a b) s

/-- R106: Lands the unsigned minimum of a and b. -/
def execMinu (d : GReg) (a : GReg) (b : GReg) (s : State) : Host.Outcome State Fault Refusal := issueOne (.minu d a b) s

/-- R106: Lands the unsigned maximum of a and b. -/
def execMaxu (d : GReg) (a : GReg) (b : GReg) (s : State) : Host.Outcome State Fault Refusal := issueOne (.maxu d a b) s

/-- R106: Lands 1 when s(a) < s(b), and 0 otherwise. -/
def execSlt (d : GReg) (a : GReg) (b : GReg) (s : State) : Host.Outcome State Fault Refusal := issueOne (.slt d a b) s

/-- R106: Lands 1 when u(a) < u(b), and 0 otherwise. -/
def execSltu (d : GReg) (a : GReg) (b : GReg) (s : State) : Host.Outcome State Fault Refusal := issueOne (.sltu d a b) s

/-- R107: Lands a when the old gD is nonzero, and b otherwise. -/
def execSel (d : GReg) (a : GReg) (b : GReg) (s : State) : Host.Outcome State Fault Refusal := issueOne (.sel d a b) s

/-- R107: Extracts a sign-extended bit field of a. -/
def execExt (d : GReg) (a : GReg) (b : GReg) (s : State) : Host.Outcome State Fault Refusal := issueOne (.ext d a b) s

/-- R107: Extracts a zero-extended bit field of a. -/
def execExtu (d : GReg) (a : GReg) (b : GReg) (s : State) : Host.Outcome State Fault Refusal := issueOne (.extu d a b) s

/-- R107: Inserts the low bits of a into a field of gD. -/
def execIns (d : GReg) (a : GReg) (b : GReg) (s : State) : Host.Outcome State Fault Refusal := issueOne (.ins d a b) s

/-- R107: Lands gD + a × b modulo 2^64 after 3 bundles. -/
def execMadd (d : GReg) (a : GReg) (b : GReg) (s : State) : Host.Outcome State Fault Refusal := issueOne (.madd d a b) s

/-- R106: Copies gA to gD. -/
def execMov (d : GReg) (a : GReg) (s : State) : Host.Outcome State Fault Refusal := issueOne (.mov d a) s

/-- R109: Copies gA to gD across register clusters. -/
def execXmov (d : GReg) (a : GReg) (s : State) : Host.Outcome State Fault Refusal := issueOne (.xmov d a) s

/-- R110: Lands a plus the sign-extended immediate. -/
def execAddi (d : GReg) (a : GReg) (imm : Imm14) (s : State) : Host.Outcome State Fault Refusal := issueOne (.addi d a imm) s

/-- R110: Lands a AND the sign-extended immediate. -/
def execAndi (d : GReg) (a : GReg) (imm : Imm14) (s : State) : Host.Outcome State Fault Refusal := issueOne (.andi d a imm) s

/-- R110: Lands a OR the sign-extended immediate. -/
def execOri (d : GReg) (a : GReg) (imm : Imm14) (s : State) : Host.Outcome State Fault Refusal := issueOne (.ori d a imm) s

/-- R110: Lands a XOR the sign-extended immediate. -/
def execXori (d : GReg) (a : GReg) (imm : Imm14) (s : State) : Host.Outcome State Fault Refusal := issueOne (.xori d a imm) s

/-- R110: Lands the sign-extended immediate × 2^24. -/
def execLui (d : GReg) (imm : Imm14) (s : State) : Host.Outcome State Fault Refusal := issueOne (.lui d imm) s

/-- R110: Lands the bundle address plus the immediate. -/
def execAddpc (d : GReg) (imm : Imm14) (s : State) : Host.Outcome State Fault Refusal := issueOne (.addpc d imm) s

/-- R28: Extends the immediate or offset of the slot that directly follows it. It takes effect with the slot that follows it: the extension stands until that slot issues (log entry 5). -/
def execImx (v : BitVec 26) (s : State) : Host.Outcome State Fault Refusal := issueImx v s

/-- R111: Floating addition rounded by RoundNE, landing after 4 bundles. -/
def execFadd (f : FFmt) (d : GReg) (a : GReg) (b : GReg) (s : State) : Host.Outcome State Fault Refusal := issueOne (.fadd f d a b) s

/-- R111: Floating subtraction. -/
def execFsub (f : FFmt) (d : GReg) (a : GReg) (b : GReg) (s : State) : Host.Outcome State Fault Refusal := issueOne (.fsub f d a b) s

/-- R111: Floating multiplication. -/
def execFmul (f : FFmt) (d : GReg) (a : GReg) (b : GReg) (s : State) : Host.Outcome State Fault Refusal := issueOne (.fmul f d a b) s

/-- R111: Fused multiply-add a × b + d, rounded once. -/
def execFfma (f : FFmt) (d : GReg) (a : GReg) (b : GReg) (s : State) : Host.Outcome State Fault Refusal := issueOne (.ffma f d a b) s

/-- R111: Floating division, landing after 14 bundles. -/
def execFdiv (f : FFmt) (d : GReg) (a : GReg) (b : GReg) (s : State) : Host.Outcome State Fault Refusal := issueOne (.fdiv f d a b) s

/-- R111: Floating square root, landing after 14 bundles. -/
def execFsqrt (f : FFmt) (d : GReg) (a : GReg) (s : State) : Host.Outcome State Fault Refusal := issueOne (.fsqrt f d a) s

/-- R111: Floating minimum, with special values as R85 gives. -/
def execFmin (f : FFmt) (d : GReg) (a : GReg) (b : GReg) (s : State) : Host.Outcome State Fault Refusal := issueOne (.fmin f d a b) s

/-- R111: Floating maximum, with special values as R85 gives. -/
def execFmax (f : FFmt) (d : GReg) (a : GReg) (b : GReg) (s : State) : Host.Outcome State Fault Refusal := issueOne (.fmax f d a b) s

/-- R111: Floating compare under eq, lt, le or un, landing an integer 1 or 0. -/
def execFcmp (c : FCond) (f : FFmt) (d : GReg) (a : GReg) (b : GReg) (s : State) : Host.Outcome State Fault Refusal := issueOne (.fcmp c f d a b) s

/-- R112: Conversion between floating and integer formats, as its sub-op selects. -/
def execFcvt (c : FCvt) (f : FFmt) (d : GReg) (a : GReg) (s : State) : Host.Outcome State Fault Refusal := issueOne (.fcvt c f d a) s

/-- R111: Clears the sign bit, raising no flag. -/
def execFabs (f : FFmt) (d : GReg) (a : GReg) (s : State) : Host.Outcome State Fault Refusal := issueOne (.fabs f d a) s

/-- R111: Inverts the sign bit, raising no flag. -/
def execFneg (f : FFmt) (d : GReg) (a : GReg) (s : State) : Host.Outcome State Fault Refusal := issueOne (.fneg f d a) s

/-- R53: Reads a special register into gD in one bundle. -/
def execCsrr (d : GReg) (r : SpecReg) (s : State) : Host.Outcome State Fault Refusal := issueOne (.csrr d r) s

/-- R412: CSRR of a tile counter (PBUB, FRZC, VHAZ, LATEV, EVDROP, EVANS), which snapshots it and clears it for every berth. -/
def execCsrrRsc (d : GReg) (r : RscReg) (s : State) : Host.Outcome State Fault Refusal := issueOne (.csrrRsc d r) s

/-- R53: Writes gD to a special register with no behaviour of its own, effective for the next bundle. -/
def execCsrw (r : SpecReg) (d : GReg) (s : State) : Host.Outcome State Fault Refusal := issueOne (.csrw r d) s

/-- R98: CSRW to FMT0–FMT15, which traps on an illegal format combination. -/
def execCsrwFmt (k : BitVec 4) (d : GReg) (s : State) : Host.Outcome State Fault Refusal := issueOne (.csrwFmt k d) s

/-- R344: CSRW to SHAPE0–SHAPE3, which traps on thresholds that are out of order. -/
def execCsrwShape (k : BitVec 2) (d : GReg) (s : State) : Host.Outcome State Fault Refusal := issueOne (.csrwShape k d) s

/-- R120: CSRW to CCTLc: writing 1 to RUN stops the chain or abandons its paused emission, and DONE is write-one-to-clear. -/
def execCsrwCctl (c : BitVec 2) (d : GReg) (s : State) : Host.Outcome State Fault Refusal := issueOne (.csrwCctl c d) s

/-- R327: CSRW to EVCTL: setting SRC sets T := TKCNT; LATE selects the late-event policy. -/
def execCsrwEvctl (d : GReg) (s : State) : Host.Outcome State Fault Refusal := issueOne (.csrwEvctl d) s

/-- R328: CSRW to EVWHk, which traps when ENTBASE + COUNT exceeds 8,192. -/
def execCsrwEvwh (k : BitVec 2) (d : GReg) (s : State) : Host.Outcome State Fault Refusal := issueOne (.csrwEvwh k d) s

end Sys2Proof.Machine
end

