-- ==== Sys2Proof/Machine/ExecVector.lean ====
section
/-!
DEFINITION. Machine/ExecVector.lean: the meanings of the vector instructions: each issues its slot, alone in its bundle, on the
current berth (R17, R21, R44).
-/
namespace Sys2Proof.Machine

/-- R154: Lane-wise addition. -/
def execVadd (p : PReg) (d : VReg) (a : VReg) (b : VReg) (s : State) : Host.Outcome State Fault Refusal := issueOne (.vadd p d a b) s

/-- R154: Lane-wise subtraction. -/
def execVsub (p : PReg) (d : VReg) (a : VReg) (b : VReg) (s : State) : Host.Outcome State Fault Refusal := issueOne (.vsub p d a b) s

/-- R154: Lane-wise multiplication. -/
def execVmul (p : PReg) (d : VReg) (a : VReg) (b : VReg) (s : State) : Host.Outcome State Fault Refusal := issueOne (.vmul p d a b) s

/-- R154: Lane-wise fused multiply-add. -/
def execVfma (p : PReg) (d : VReg) (a : VReg) (b : VReg) (s : State) : Host.Outcome State Fault Refusal := issueOne (.vfma p d a b) s

/-- R154: Lane-wise minimum. -/
def execVmin (p : PReg) (d : VReg) (a : VReg) (b : VReg) (s : State) : Host.Outcome State Fault Refusal := issueOne (.vmin p d a b) s

/-- R154: Lane-wise maximum. -/
def execVmax (p : PReg) (d : VReg) (a : VReg) (b : VReg) (s : State) : Host.Outcome State Fault Refusal := issueOne (.vmax p d a b) s

/-- R154: Lane-wise absolute value. -/
def execVabs (p : PReg) (d : VReg) (a : VReg) (s : State) : Host.Outcome State Fault Refusal := issueOne (.vabs p d a) s

/-- R154: Lane-wise negation. -/
def execVneg (p : PReg) (d : VReg) (a : VReg) (s : State) : Host.Outcome State Fault Refusal := issueOne (.vneg p d a) s

/-- R154: Lane-wise division, landing after 14 bundles on floating lanes and 20 on integer lanes. -/
def execVdiv (p : PReg) (d : VReg) (a : VReg) (b : VReg) (s : State) : Host.Outcome State Fault Refusal := issueOne (.vdiv p d a b) s

/-- R155: Lane-wise square root, on floating lanes only. -/
def execVsqrt (p : PReg) (d : VReg) (a : VReg) (s : State) : Host.Outcome State Fault Refusal := issueOne (.vsqrt p d a) s

/-- R155: Lane-wise reciprocal. -/
def execVrcp (p : PReg) (d : VReg) (a : VReg) (s : State) : Host.Outcome State Fault Refusal := issueOne (.vrcp p d a) s

/-- R155: Lane-wise reciprocal square root. -/
def execVrsq (p : PReg) (d : VReg) (a : VReg) (s : State) : Host.Outcome State Fault Refusal := issueOne (.vrsq p d a) s

/-- R155: Lane-wise 2^a. -/
def execVexp (p : PReg) (d : VReg) (a : VReg) (s : State) : Host.Outcome State Fault Refusal := issueOne (.vexp p d a) s

/-- R155: Lane-wise log2(a). -/
def execVlog (p : PReg) (d : VReg) (a : VReg) (s : State) : Host.Outcome State Fault Refusal := issueOne (.vlog p d a) s

/-- R158: Selects lanes of vA or vB by predicate. -/
def execVsel (p : PReg) (d : VReg) (a : VReg) (b : VReg) (s : State) : Host.Outcome State Fault Refusal := issueOne (.vsel p d a b) s

/-- R164: Converts lanes from type LT to type CT. -/
def execVcvt (p : PReg) (d : VReg) (a : VReg) (s : State) : Host.Outcome State Fault Refusal := issueOne (.vcvt p d a) s

/-- R156: Lane-wise bitwise AND. -/
def execVand (p : PReg) (d : VReg) (a : VReg) (b : VReg) (s : State) : Host.Outcome State Fault Refusal := issueOne (.vand p d a b) s

/-- R156: Lane-wise bitwise OR. -/
def execVor (p : PReg) (d : VReg) (a : VReg) (b : VReg) (s : State) : Host.Outcome State Fault Refusal := issueOne (.vor p d a b) s

/-- R156: Lane-wise bitwise XOR. -/
def execVxor (p : PReg) (d : VReg) (a : VReg) (b : VReg) (s : State) : Host.Outcome State Fault Refusal := issueOne (.vxor p d a b) s

/-- R156: Lane-wise left shift. -/
def execVshl (p : PReg) (d : VReg) (a : VReg) (b : VReg) (s : State) : Host.Outcome State Fault Refusal := issueOne (.vshl p d a b) s

/-- R156: Lane-wise logical right shift. -/
def execVshr (p : PReg) (d : VReg) (a : VReg) (b : VReg) (s : State) : Host.Outcome State Fault Refusal := issueOne (.vshr p d a b) s

/-- R156: Lane-wise arithmetic right shift. -/
def execVsra (p : PReg) (d : VReg) (a : VReg) (b : VReg) (s : State) : Host.Outcome State Fault Refusal := issueOne (.vsra p d a b) s

/-- R159: Pairwise-tree sum of the active lanes, combined with lane 0 of vB. -/
def execVreds (p : PReg) (d : VReg) (a : VReg) (b : VReg) (s : State) : Host.Outcome State Fault Refusal := issueOne (.vreds p d a b) s

/-- R159: Pairwise-tree maximum reduction. -/
def execVredmMax (p : PReg) (d : VReg) (a : VReg) (b : VReg) (s : State) : Host.Outcome State Fault Refusal := issueOne (.vredmMax p d a b) s

/-- R159: Pairwise-tree minimum reduction. -/
def execVredmMin (p : PReg) (d : VReg) (a : VReg) (b : VReg) (s : State) : Host.Outcome State Fault Refusal := issueOne (.vredmMin p d a b) s

/-- R160: Inclusive running sum in ascending lane order. -/
def execVscan (p : PReg) (d : VReg) (a : VReg) (s : State) : Host.Outcome State Fault Refusal := issueOne (.vscan p d a) s

/-- R156: Lane-wise population count. -/
def execVpopc (p : PReg) (d : VReg) (a : VReg) (s : State) : Host.Outcome State Fault Refusal := issueOne (.vpopc p d a) s

/-- R161: Writes each active lane with the number of active lanes below it. -/
def execViota (p : PReg) (d : VReg) (s : State) : Host.Outcome State Fault Refusal := issueOne (.viota p d) s

/-- R157: Compares lanes for equality into pD. -/
def execVcmpEq (p : PReg) (d : PReg) (a : VReg) (b : VReg) (s : State) : Host.Outcome State Fault Refusal := issueOne (.vcmpEq p d a b) s

/-- R157: Compares lanes for inequality into pD. -/
def execVcmpNe (p : PReg) (d : PReg) (a : VReg) (b : VReg) (s : State) : Host.Outcome State Fault Refusal := issueOne (.vcmpNe p d a b) s

/-- R157: Compares lanes for less-than into pD. -/
def execVcmpLt (p : PReg) (d : PReg) (a : VReg) (b : VReg) (s : State) : Host.Outcome State Fault Refusal := issueOne (.vcmpLt p d a b) s

/-- R157: Compares lanes for less-or-equal into pD. -/
def execVcmpLe (p : PReg) (d : PReg) (a : VReg) (b : VReg) (s : State) : Host.Outcome State Fault Refusal := issueOne (.vcmpLe p d a b) s

/-- R162: Permutes the lanes of vA by the indices in vB. -/
def execVperm (p : PReg) (d : VReg) (a : VReg) (b : VReg) (s : State) : Host.Outcome State Fault Refusal := issueOne (.vperm p d a b) s

/-- R162: Shuffles the bytes of vA by the indices in vB. -/
def execVshuf (p : PReg) (d : VReg) (a : VReg) (b : VReg) (s : State) : Host.Outcome State Fault Refusal := issueOne (.vshuf p d a b) s

/-- R163: Broadcasts gB to every active lane. -/
def execVbcast (p : PReg) (d : VReg) (b : GReg) (s : State) : Host.Outcome State Fault Refusal := issueOne (.vbcast p d b) s

/-- R166: Splits 64 signed bytes into bit-plane words. -/
def execVpln (p : PReg) (d : VReg) (a : VReg) (b : GReg) (s : State) : Host.Outcome State Fault Refusal := issueOne (.vpln p d a b) s

/-- R166: Joins bit-plane words back into signed bytes. -/
def execVplj (p : PReg) (d : VReg) (a : VReg) (b : GReg) (s : State) : Host.Outcome State Fault Refusal := issueOne (.vplj p d a b) s

/-- R163: Moves lane gB of vA into gD. -/
def execVmovsG (d : GReg) (a : VReg) (b : GReg) (s : State) : Host.Outcome State Fault Refusal := issueOne (.vmovsG d a b) s

/-- R163: Moves gB into lane gA of vD. -/
def execVmovsV (d : VReg) (a : GReg) (b : GReg) (s : State) : Host.Outcome State Fault Refusal := issueOne (.vmovsV d a b) s

end Sys2Proof.Machine
end

