-- ==== Sys2Proof/Machine/Dispatch.lean ====
section
/-!
DEFINITION. Machine/Dispatch.lean: the meaning of each instruction.
-/
namespace Sys2Proof.Machine

def exec (i : Instr) (s : State) : Host.Outcome State Fault Refusal :=
  match i with
  | .nop => Sys2Proof.Machine.execNop s
  | .jmpi a => Sys2Proof.Machine.execJmpi a s
  | .ret a => Sys2Proof.Machine.execRet a s
  | .yield => Sys2Proof.Machine.execYield s
  | .done => Sys2Proof.Machine.execDone s
  | .trap a => Sys2Proof.Machine.execTrap a s
  | .kchain a b => Sys2Proof.Machine.execKchain a b s
  | .sys a b => Sys2Proof.Machine.execSys a b s
  | .brk a => Sys2Proof.Machine.execBrk a s
  | .wfe => Sys2Proof.Machine.execWfe s
  | .eret => Sys2Proof.Machine.execEret s
  | .tlbi a b => Sys2Proof.Machine.execTlbi a b s
  | .tpre a => Sys2Proof.Machine.execTpre a s
  | .halt => Sys2Proof.Machine.execHalt s
  | .br disp => Sys2Proof.Machine.execBr disp s
  | .call d disp => Sys2Proof.Machine.execCall d disp s
  | .jmp disp => Sys2Proof.Machine.execJmp disp s
  | .brnZ d disp => Sys2Proof.Machine.execBrnZ d disp s
  | .brnNz d disp => Sys2Proof.Machine.execBrnNz d disp s
  | .brnP c k disp => Sys2Proof.Machine.execBrnP c k disp s
  | .loop d disp => Sys2Proof.Machine.execLoop d disp s
  | .loopi n disp => Sys2Proof.Machine.execLoopi n disp s
  | .add d a b => Sys2Proof.Machine.execAdd d a b s
  | .sub d a b => Sys2Proof.Machine.execSub d a b s
  | .mul d a b => Sys2Proof.Machine.execMul d a b s
  | .mulh d a b => Sys2Proof.Machine.execMulh d a b s
  | .mulhu d a b => Sys2Proof.Machine.execMulhu d a b s
  | .div d a b => Sys2Proof.Machine.execDiv d a b s
  | .divu d a b => Sys2Proof.Machine.execDivu d a b s
  | .rem d a b => Sys2Proof.Machine.execRem d a b s
  | .remu d a b => Sys2Proof.Machine.execRemu d a b s
  | .and d a b => Sys2Proof.Machine.execAnd d a b s
  | .or d a b => Sys2Proof.Machine.execOr d a b s
  | .xor d a b => Sys2Proof.Machine.execXor d a b s
  | .andn d a b => Sys2Proof.Machine.execAndn d a b s
  | .sll d a b => Sys2Proof.Machine.execSll d a b s
  | .srl d a b => Sys2Proof.Machine.execSrl d a b s
  | .sra d a b => Sys2Proof.Machine.execSra d a b s
  | .ror d a b => Sys2Proof.Machine.execRor d a b s
  | .sllImm d a n => Sys2Proof.Machine.execSllImm d a n s
  | .srlImm d a n => Sys2Proof.Machine.execSrlImm d a n s
  | .sraImm d a n => Sys2Proof.Machine.execSraImm d a n s
  | .rorImm d a n => Sys2Proof.Machine.execRorImm d a n s
  | .clz d a => Sys2Proof.Machine.execClz d a s
  | .ctz d a => Sys2Proof.Machine.execCtz d a s
  | .popc d a => Sys2Proof.Machine.execPopc d a s
  | .min d a b => Sys2Proof.Machine.execMin d a b s
  | .max d a b => Sys2Proof.Machine.execMax d a b s
  | .minu d a b => Sys2Proof.Machine.execMinu d a b s
  | .maxu d a b => Sys2Proof.Machine.execMaxu d a b s
  | .slt d a b => Sys2Proof.Machine.execSlt d a b s
  | .sltu d a b => Sys2Proof.Machine.execSltu d a b s
  | .sel d a b => Sys2Proof.Machine.execSel d a b s
  | .ext d a b => Sys2Proof.Machine.execExt d a b s
  | .extu d a b => Sys2Proof.Machine.execExtu d a b s
  | .ins d a b => Sys2Proof.Machine.execIns d a b s
  | .madd d a b => Sys2Proof.Machine.execMadd d a b s
  | .mov d a => Sys2Proof.Machine.execMov d a s
  | .xmov d a => Sys2Proof.Machine.execXmov d a s
  | .addi d a imm => Sys2Proof.Machine.execAddi d a imm s
  | .andi d a imm => Sys2Proof.Machine.execAndi d a imm s
  | .ori d a imm => Sys2Proof.Machine.execOri d a imm s
  | .xori d a imm => Sys2Proof.Machine.execXori d a imm s
  | .lui d imm => Sys2Proof.Machine.execLui d imm s
  | .addpc d imm => Sys2Proof.Machine.execAddpc d imm s
  | .imx v => Sys2Proof.Machine.execImx v s
  | .fadd f d a b => Sys2Proof.Machine.execFadd f d a b s
  | .fsub f d a b => Sys2Proof.Machine.execFsub f d a b s
  | .fmul f d a b => Sys2Proof.Machine.execFmul f d a b s
  | .ffma f d a b => Sys2Proof.Machine.execFfma f d a b s
  | .fdiv f d a b => Sys2Proof.Machine.execFdiv f d a b s
  | .fsqrt f d a => Sys2Proof.Machine.execFsqrt f d a s
  | .fmin f d a b => Sys2Proof.Machine.execFmin f d a b s
  | .fmax f d a b => Sys2Proof.Machine.execFmax f d a b s
  | .fcmp c f d a b => Sys2Proof.Machine.execFcmp c f d a b s
  | .fcvt c f d a => Sys2Proof.Machine.execFcvt c f d a s
  | .fabs f d a => Sys2Proof.Machine.execFabs f d a s
  | .fneg f d a => Sys2Proof.Machine.execFneg f d a s
  | .csrr d r => Sys2Proof.Machine.execCsrr d r s
  | .csrrRsc d r => Sys2Proof.Machine.execCsrrRsc d r s
  | .csrw r d => Sys2Proof.Machine.execCsrw r d s
  | .csrwFmt k d => Sys2Proof.Machine.execCsrwFmt k d s
  | .csrwShape k d => Sys2Proof.Machine.execCsrwShape k d s
  | .csrwCctl c d => Sys2Proof.Machine.execCsrwCctl c d s
  | .csrwEvctl d => Sys2Proof.Machine.execCsrwEvctl d s
  | .csrwEvwh k d => Sys2Proof.Machine.execCsrwEvwh k d s
  | .ld wd l d a ofs => Sys2Proof.Machine.execLd wd l d a ofs s
  | .ldIndexed wd l d a b => Sys2Proof.Machine.execLdIndexed wd l d a b s
  | .lds wd l d a ofs => Sys2Proof.Machine.execLds wd l d a ofs s
  | .ldsIndexed wd l d a b => Sys2Proof.Machine.execLdsIndexed wd l d a b s
  | .st wd d a ofs => Sys2Proof.Machine.execSt wd d a ofs s
  | .stIndexed wd d a b => Sys2Proof.Machine.execStIndexed wd d a b s
  | .tagld l d a ofs => Sys2Proof.Machine.execTagld l d a ofs s
  | .tagst d a ofs => Sys2Proof.Machine.execTagst d a ofs s
  | .mcst d a ofs => Sys2Proof.Machine.execMcst d a ofs s
  | .ldv l d a ofs => Sys2Proof.Machine.execLdv l d a ofs s
  | .stv d a ofs => Sys2Proof.Machine.execStv d a ofs s
  | .ldx l d a ofs => Sys2Proof.Machine.execLdx l d a ofs s
  | .stx d a ofs => Sys2Proof.Machine.execStx d a ofs s
  | .ldDAcq sc l d a ofs => Sys2Proof.Machine.execLdDAcq sc l d a ofs s
  | .stDRel sc d a ofs => Sys2Proof.Machine.execStDRel sc d a ofs s
  | .amo op wd l d a b => Sys2Proof.Machine.execAmo op wd l d a b s
  | .amos op sc o d a b => Sys2Proof.Machine.execAmos op sc o d a b s
  | .fence sc => Sys2Proof.Machine.execFence sc s
  | .vjoin => Sys2Proof.Machine.execVjoin s
  | .pref a => Sys2Proof.Machine.execPref a s
  | .flush sc a b => Sys2Proof.Machine.execFlush sc a b s
  | .inval sc a b => Sys2Proof.Machine.execInval sc a b s
  | .red op wd a b => Sys2Proof.Machine.execRed op wd a b s
  | .vadd p d a b => Sys2Proof.Machine.execVadd p d a b s
  | .vsub p d a b => Sys2Proof.Machine.execVsub p d a b s
  | .vmul p d a b => Sys2Proof.Machine.execVmul p d a b s
  | .vfma p d a b => Sys2Proof.Machine.execVfma p d a b s
  | .vmin p d a b => Sys2Proof.Machine.execVmin p d a b s
  | .vmax p d a b => Sys2Proof.Machine.execVmax p d a b s
  | .vabs p d a => Sys2Proof.Machine.execVabs p d a s
  | .vneg p d a => Sys2Proof.Machine.execVneg p d a s
  | .vdiv p d a b => Sys2Proof.Machine.execVdiv p d a b s
  | .vsqrt p d a => Sys2Proof.Machine.execVsqrt p d a s
  | .vrcp p d a => Sys2Proof.Machine.execVrcp p d a s
  | .vrsq p d a => Sys2Proof.Machine.execVrsq p d a s
  | .vexp p d a => Sys2Proof.Machine.execVexp p d a s
  | .vlog p d a => Sys2Proof.Machine.execVlog p d a s
  | .vsel p d a b => Sys2Proof.Machine.execVsel p d a b s
  | .vcvt p d a => Sys2Proof.Machine.execVcvt p d a s
  | .vand p d a b => Sys2Proof.Machine.execVand p d a b s
  | .vor p d a b => Sys2Proof.Machine.execVor p d a b s
  | .vxor p d a b => Sys2Proof.Machine.execVxor p d a b s
  | .vshl p d a b => Sys2Proof.Machine.execVshl p d a b s
  | .vshr p d a b => Sys2Proof.Machine.execVshr p d a b s
  | .vsra p d a b => Sys2Proof.Machine.execVsra p d a b s
  | .vreds p d a b => Sys2Proof.Machine.execVreds p d a b s
  | .vredmMax p d a b => Sys2Proof.Machine.execVredmMax p d a b s
  | .vredmMin p d a b => Sys2Proof.Machine.execVredmMin p d a b s
  | .vscan p d a => Sys2Proof.Machine.execVscan p d a s
  | .vpopc p d a => Sys2Proof.Machine.execVpopc p d a s
  | .viota p d => Sys2Proof.Machine.execViota p d s
  | .vcmpEq p d a b => Sys2Proof.Machine.execVcmpEq p d a b s
  | .vcmpNe p d a b => Sys2Proof.Machine.execVcmpNe p d a b s
  | .vcmpLt p d a b => Sys2Proof.Machine.execVcmpLt p d a b s
  | .vcmpLe p d a b => Sys2Proof.Machine.execVcmpLe p d a b s
  | .vperm p d a b => Sys2Proof.Machine.execVperm p d a b s
  | .vshuf p d a b => Sys2Proof.Machine.execVshuf p d a b s
  | .vbcast p d b => Sys2Proof.Machine.execVbcast p d b s
  | .vpln p d a b => Sys2Proof.Machine.execVpln p d a b s
  | .vplj p d a b => Sys2Proof.Machine.execVplj p d a b s
  | .vmovsG d a b => Sys2Proof.Machine.execVmovsG d a b s
  | .vmovsV d a b => Sys2Proof.Machine.execVmovsV d a b s
  | .tlw v m a => Sys2Proof.Machine.execTlw v m a s
  | .tmm v m a => Sys2Proof.Machine.execTmm v m a s
  | .tmmg v m a => Sys2Proof.Machine.execTmmg v m a s
  | .trank v m a => Sys2Proof.Machine.execTrank v m a s
  | .tspz v m a => Sys2Proof.Machine.execTspz v m a s
  | .tdr v m a => Sys2Proof.Machine.execTdr v m a s
  | .tz m a => Sys2Proof.Machine.execTz m a s
  | .tshape m a => Sys2Proof.Machine.execTshape m a s
  | .gath e m a => Sys2Proof.Machine.execGath e m a s
  | .scat e m a => Sys2Proof.Machine.execScat e m a s
  | .copy e m a => Sys2Proof.Machine.execCopy e m a s
  | .copy2 e m a => Sys2Proof.Machine.execCopy2 e m a s
  | .setm e m a b => Sys2Proof.Machine.execSetm e m a b s
  | .qfence sc m a => Sys2Proof.Machine.execQfence sc m a s
  | .mwait m => Sys2Proof.Machine.execMwait m s
  | .mprg d m => Sys2Proof.Machine.execMprg d m s
  | .mstat d m => Sys2Proof.Machine.execMstat d m s
  | .mres m a => Sys2Proof.Machine.execMres m a s
  | .mkill m => Sys2Proof.Machine.execMkill m s
  | .pub d a b => Sys2Proof.Machine.execPub d a b s
  | .subNet l d a b => Sys2Proof.Machine.execSubNet l d a b s
  | .unsub l d a b => Sys2Proof.Machine.execUnsub l d a b s
  | .steer d a b => Sys2Proof.Machine.execSteer d a b s
  | .merge d a b => Sys2Proof.Machine.execMerge d a b s
  | .stsnap a => Sys2Proof.Machine.execStsnap a s
  | .send d a b => Sys2Proof.Machine.execSend d a b s
  | .grant a b => Sys2Proof.Machine.execGrant a b s
  | .arrive a => Sys2Proof.Machine.execArrive a s
  | .frame l d a b => Sys2Proof.Machine.execFrame l d a b s
  | .fslot d a b => Sys2Proof.Machine.execFslot d a b s
  | .spawn a b => Sys2Proof.Machine.execSpawn a b s
  | .tagop l d a b => Sys2Proof.Machine.execTagop l d a b s
  | .evcfgPset a b => Sys2Proof.Machine.execEvcfgPset a b s
  | .evcfgEntries a b => Sys2Proof.Machine.execEvcfgEntries a b s
  | .evpost d a b => Sys2Proof.Machine.execEvpost d a b s
  | .evrd l d a => Sys2Proof.Machine.execEvrd l d a s
  | .evsnap a b => Sys2Proof.Machine.execEvsnap a b s
  | .evtick a => Sys2Proof.Machine.execEvtick a s
  | .bundleIssue t => Sys2Proof.Machine.execBundleIssue t s
  | .resultArrival t b k => Sys2Proof.Machine.execResultArrival t b k s
  | .berthSave t b => Sys2Proof.Machine.execBerthSave t b s
  | .supervisorEntry t => Sys2Proof.Machine.execSupervisorEntry t s
  | .macroStart t q => Sys2Proof.Machine.execMacroStart t q s
  | .macroElement t q => Sys2Proof.Machine.execMacroElement t q s
  | .egressInject t => Sys2Proof.Machine.execEgressInject t s
  | .tokenSelection t => Sys2Proof.Machine.execTokenSelection t s
  | .frameFill t => Sys2Proof.Machine.execFrameFill t s
  | .spawnArrival k => Sys2Proof.Machine.execSpawnArrival k s
  | .chainEmission t c => Sys2Proof.Machine.execChainEmission t c s
  | .routerPub k => Sys2Proof.Machine.execRouterPub k s
  | .routerSub k => Sys2Proof.Machine.execRouterSub k s
  | .routerUnsub k => Sys2Proof.Machine.execRouterUnsub k s
  | .summitApply k => Sys2Proof.Machine.execSummitApply k s
  | .routerAnswer k => Sys2Proof.Machine.execRouterAnswer k s
  | .answerArrival k => Sys2Proof.Machine.execAnswerArrival k s
  | .quayFall k => Sys2Proof.Machine.execQuayFall k s
  | .quayFallPublish q k => Sys2Proof.Machine.execQuayFallPublish q k s
  | .ingressPacket k => Sys2Proof.Machine.execIngressPacket k s
  | .strmDeposit t k => Sys2Proof.Machine.execStrmDeposit t k s
  | .grantAtSummit k => Sys2Proof.Machine.execGrantAtSummit k s
  | .openAtSummit k => Sys2Proof.Machine.execOpenAtSummit k s
  | .grantArrival k => Sys2Proof.Machine.execGrantArrival k s
  | .staleArrival k => Sys2Proof.Machine.execStaleArrival k s
  | .ackArrival k => Sys2Proof.Machine.execAckArrival k s
  | .resendTimeout t k => Sys2Proof.Machine.execResendTimeout t k s
  | .retentionExpiry sp k => Sys2Proof.Machine.execRetentionExpiry sp k s
  | .portArbitration r p => Sys2Proof.Machine.execPortArbitration r p s
  | .linkFlitReceive r p good => Sys2Proof.Machine.execLinkFlitReceive r p good s
  | .linkNak r p => Sys2Proof.Machine.execLinkNak r p s
  | .linkAckTimeout r p => Sys2Proof.Machine.execLinkAckTimeout r p s
  | .reachabilitySweep f => Sys2Proof.Machine.execReachabilitySweep f s
  | .nieskFrameReceive q fr => Sys2Proof.Machine.execNieskFrameReceive q fr s
  | .nieskPortDead q => Sys2Proof.Machine.execNieskPortDead q s
  | .partialArrival k => Sys2Proof.Machine.execPartialArrival k s
  | .homeAccess a => Sys2Proof.Machine.execHomeAccess a s
  | .baseDieAlu k => Sys2Proof.Machine.execBaseDieAlu k s
  | .walkRequest a k => Sys2Proof.Machine.execWalkRequest a k s
  | .walkDone q k => Sys2Proof.Machine.execWalkDone q k s
  | .migRecheck q k => Sys2Proof.Machine.execMigRecheck q k s
  | .arriveAtHome k => Sys2Proof.Machine.execArriveAtHome k s
  | .barrierNoticeArrival k => Sys2Proof.Machine.execBarrierNoticeArrival k s
  | .replyNoticeArrival k => Sys2Proof.Machine.execReplyNoticeArrival k s
  | .tick => Sys2Proof.Machine.execTick s
  | .eventArrival k => Sys2Proof.Machine.execEventArrival k s
  | .eventApply t => Sys2Proof.Machine.execEventApply t s
  | .claimAnswerArrival k => Sys2Proof.Machine.execClaimAnswerArrival k s
  | .tileFault t c => Sys2Proof.Machine.execTileFault t c s
  | .softErrorCorrected t u => Sys2Proof.Machine.execSoftErrorCorrected t u s
  | .tilePowerLoss t => Sys2Proof.Machine.execTilePowerLoss t s
  | .quiescenceSweep => Sys2Proof.Machine.execQuiescenceSweep s
  | .allot v => Sys2Proof.Machine.execAllot v s
  | .scrubDone j => Sys2Proof.Machine.execScrubDone j s
  | .start v => Sys2Proof.Machine.execStart v s
  | .gate v => Sys2Proof.Machine.execGate v s
  | .gateStopped j => Sys2Proof.Machine.execGateStopped j s
  | .gateSaveDone j => Sys2Proof.Machine.execGateSaveDone j s
  | .resume v => Sys2Proof.Machine.execResume v s
  | .resumeMove v => Sys2Proof.Machine.execResumeMove v s
  | .jobEnd v => Sys2Proof.Machine.execJobEnd v s
  | .endDone j => Sys2Proof.Machine.execEndDone j s
  | .jtcmdUnassigned v => Sys2Proof.Machine.execJtcmdUnassigned v s
  | .retire v => Sys2Proof.Machine.execRetire v s
  | .genadv v => Sys2Proof.Machine.execGenadv v s
  | .tableRefresh t => Sys2Proof.Machine.execTableRefresh t s
  | .genadvDone => Sys2Proof.Machine.execGenadvDone s
  | .shoot v => Sys2Proof.Machine.execShoot v s
  | .shootDone => Sys2Proof.Machine.execShootDone s
  | .csnap v => Sys2Proof.Machine.execCsnap v s
  | .channelRangeWrite r hi v => Sys2Proof.Machine.execChannelRangeWrite r hi v s
  | .tickPeriodWrite v => Sys2Proof.Machine.execTickPeriodWrite v s
  | .orphqWrite v => Sys2Proof.Machine.execOrphqWrite v s
  | .rnote v => Sys2Proof.Machine.execRnote v s
  | .watchpointWrite k hi v => Sys2Proof.Machine.execWatchpointWrite k hi v s
  | .arbwWrite f v => Sys2Proof.Machine.execArbwWrite f v s
  | .arbaWrite f v => Sys2Proof.Machine.execArbaWrite f v s
  | .modidWrite v => Sys2Proof.Machine.execModidWrite v s
  | .debugStop t v => Sys2Proof.Machine.execDebugStop t v s
  | .debugRelease t v => Sys2Proof.Machine.execDebugRelease t v s
  | .debugDump t v => Sys2Proof.Machine.execDebugDump t v s
  | .dumpDone t => Sys2Proof.Machine.execDumpDone t s
  | .sample t => Sys2Proof.Machine.execSample t s
  | .criticalPathStep k => Sys2Proof.Machine.execCriticalPathStep k s
  | .traceDrain t => Sys2Proof.Machine.execTraceDrain t s
  | .traceRingWrite f => Sys2Proof.Machine.execTraceRingWrite f s
  | .energyAddition f => Sys2Proof.Machine.execEnergyAddition f s
  | .energyWindowStart f => Sys2Proof.Machine.execEnergyWindowStart f s
  | .powerOverload hard => Sys2Proof.Machine.execPowerOverload hard s
  | .undervoltage => Sys2Proof.Machine.execUndervoltage s
  | .thermalEvent f tenths => Sys2Proof.Machine.execThermalEvent f tenths s
  | .powerOn => Sys2Proof.Machine.execPowerOn s
  | .attest v => Sys2Proof.Machine.execAttest v s
  | .token v => Sys2Proof.Machine.execToken v s
  | .map v => Sys2Proof.Machine.execMap v s
  | .cert v => Sys2Proof.Machine.execCert v s
  | .status v => Sys2Proof.Machine.execStatus v s
  | .crcmdUnassigned v => Sys2Proof.Machine.execCrcmdUnassigned v s
  | .mgmtRequest m => Sys2Proof.Machine.execMgmtRequest m s
  | .pcieInbound x => Sys2Proof.Machine.execPcieInbound x s
  | .rscRead addr => Sys2Proof.Machine.execRscRead addr s
  | .registerWrite addr v => Sys2Proof.Machine.execRegisterWrite addr v s
  | .writeAcknowledgement t k => Sys2Proof.Machine.execWriteAcknowledgement t k s
  | .csnapDone => Sys2Proof.Machine.execCsnapDone s
  | .powerOverloadEnd hard => Sys2Proof.Machine.execPowerOverloadEnd hard s
  | .thermalHoldEnd f => Sys2Proof.Machine.execThermalHoldEnd f s
  | .nieskPortUp q peer => Sys2Proof.Machine.execNieskPortUp q peer s

end Sys2Proof.Machine
end

