-- ==== Sys2Proof/Machine/Step.lean ====
section
/-!
DEFINITION. Machine/Step.lean: one step of the module, and placing an instruction where the next step fetches it.
-/
namespace Sys2Proof.Machine

/-- One step: the agent that the schedule names acts, or, when nothing is scheduled, the core of the current tile issues its
next bundle (log entry 3). -/
def step (s : State) : Host.Outcome State Fault Refusal :=
  match s.schedule with
  | i :: r => exec i { s with schedule := r }
  | [] => exec (.bundleIssue s.cur) s

/-- The bundle that holds one instruction word: the word, padded with NOPs, the last one with its end bit (R17). The word after
an IMX is ADDI g0, g0, 0, so that the extension has a slot to extend. -/
def oneWordBundle (w : Nat) : List Byte :=
  leBytes 4 (w % 2 ^ 31) ++ leBytes 4 (if w / 2 ^ 26 % 32 = 31 then 0x24000000 else 0) ++ leBytes 4 0 ++ leBytes 4 (2 ^ 31)

/-- A tile with a token of job 1 bound to berth 0, its first bundle at the start of the window, and no other berth bound (log
entry 4). -/
def Tile.withBundle (x : Tile) (bs : List Byte) : Tile :=
  let place (b : Fin 5) (y : Berth) : Berth :=
    if b = 0 then { y with status := .bound, ip := BitVec.ofNat 64 wbase, landing := [], xfer := none, faults := [],
                           after := .nothing, boundAt := none, resume := [] }
    else { y with status := .free, xfer := none, resume := [] }
  { x with powered := true, retired := false, faulted := false, stopped := false, halted := false, gate := .idle, job := 1,
           lastBerth := 3, bubbles := 0, frozen := none, berths := Vector.ofFn fun b => place b x.berths[b], moved := [],
           pad := x.pad.writeBytes 0 bs }

/-- The state with one instruction stored where `step` fetches its next instruction: a program comes to run by the job's START
and the binding of a token, for which this stands (log entry 4). -/
def State.withFetchWord (s : State) (_nbits w : Nat) : State :=
  let s := { s with schedule := [], imx := none, stuck := none, booted := true }
  let s := s.setField (fieldOf s.cur) { s.field (fieldOf s.cur) with powered := true }
  let s := s.setJob 1 { s.job 1 with st := .running }
  s.setTile s.cur ((s.tile s.cur).withBundle (oneWordBundle w))

end Sys2Proof.Machine
end

