-- ==== Sys2Proof/Safety.lean ====
section
/-!
DEFINITION. Safety.lean: the terms that the statements use: what a state in order is, when an instruction issues alone in its
bundle, and what its retirement leaves unchanged.
-/
namespace Sys2Proof.Machine

/-! ### States in order -/

/-- The canonical form of a tile's keyed lists. -/
def Tile.wf (x : Tile) : Bool :=
  Memory.wf x.pad && x.frames.risesFrom 0 && SMap.wf 0 x.steer && SMap.wf {} x.bank.entries

/-- The canonical form of a field's keyed lists. -/
def Field.wf (x : Field) : Bool :=
  x.tree.risesFrom 0 && SMap.wf 0 x.jobEnergy && SMap.wf 0 x.jobBase && SMap.wf 0 x.activity

/-- The canonical form of the module's memory and of its keyed lists: no key twice, in order, and no entry that says what an unlisted key
says where an entry is taken away for it. -/
def State.wf (s : State) : Bool :=
  Memory.wf s.mem && SMap.wf 0 s.locks && SMap.wf false s.poison && s.tiles.risesFrom 0 && s.routers.risesFrom 0 && s.spurs.risesFrom 0
    && s.fields.risesFrom 0 && s.quays.risesFrom 0 && s.diverged.risesFrom 0 && s.ranges.risesFrom 0 && s.chans.risesFrom 0
    && SMap.wf none s.rows && s.jobs.risesFrom 0 && s.nodes.risesFrom 0 && (s.tiles.all fun kv => kv.2.wf)
    && (s.fields.all fun kv => kv.2.wf) && s.jobs.all fun kv => kv.2.blocks.all fun q => q.saved.wf

/-- A run is safe while no device unit is directed to an address that no memory holds (R300). -/
def safeOutcome (r : Host.Outcome State Fault Refusal) : Bool :=
  match r with
  | .next _ => true
  | _ => false

/-- One byte of the module's memory, by its physical address. -/
def State.byte (s : State) (a : Nat) : Byte := s.pb a
/-- One byte of the scratchpad of tile `t`, by its physical place. -/
def State.padByte (s : State) (t a : Nat) : Byte := SMap.get 0 (s.tile t).pad a

/-! ### One instruction alone in its bundle (R17, R28, R44) -/

/-- The berth whose bundle issues. -/
def State.me (s : State) : Berth := s.berth s.cur s.curB

/-- That berth as the bundle's operands read it: the results that are due have landed (R19, R35). -/
def State.ops (s : State) : Berth := s.me.settle

/-- The address of the sequential bundle after one of four slots (R15). -/
def State.nextIp (s : State) : Word := s.me.ip + 16

/-- The slots of the bundle that holds an instruction alone, after the extension that stands before it (R17, R28). -/
def State.bundle (s : State) (i : Instr) : List Slot :=
  let xs : List Instr := match s.imx with
    | some v => [.imx v, i, .nop, .nop]
    | none => [i, .nop, .nop, .nop]
  xs.map Slot.ofInstr

/-- The state with no extension pending. -/
def State.plain (s : State) : State := { s with imx := none }

/-- The tile with no berth frozen (R39). -/
def Tile.thaw (x : Tile) : Tile := { x with frozen := none }

/-- The state with the issuing berth replaced, its core not frozen and no extension pending. -/
def State.acting (s : State) (y : Berth) : State := s.plain.setTile s.cur ((s.tile s.cur).thaw.setBerth s.curB y)

/-- The state in which the instruction's slot acts. -/
def State.issuing (s : State) : State := s.acting s.ops

/-- Where and how the slot issues. -/
def State.ctx (s : State) : SlotCtx :=
  { t := s.cur, b := s.curB, pre := s.ops, baddr := s.me.ip, next := s.nextIp,
    slot := match s.imx with | some _ => 2 | none => 1, ext := s.imx }

/-- Whether the second delay bundle of an ERET retires with the berth's next bundle (R224). -/
def Berth.returns (y : Berth) : Bool :=
  match y.xfer with
  | some x => x.eret && decide (x.left ≤ 1)
  | none => false

/-- The conditions under which an instruction, alone in its bundle, issues on the current berth and reaches its operation
(R39, R44, R247, R349). -/
structure Issues (i : Instr) (s : State) : Prop where
  /-- The core runs and the berth is bound (R245). -/
  runs : s.berthRuns s.cur s.curB = true
  /-- No device unit has been directed to an unpopulated address (R300). -/
  populated : s.stuck = none
  /-- No hold keeps the bundle (R247). -/
  notHeld : s.plain.bundleHeld s.cur s.curB s.me.ip s.nextIp (s.bundle i) = false
  /-- No result that is due is on its way (R39). -/
  arrived : s.me.late = false
  /-- No pending fault stands before the bundle (R349). -/
  noFault : s.me.faults = []
  /-- Steps 2 to 5 of R44 find nothing. -/
  passes : s.issuing.checkBundle s.cur s.curB s.me.ip s.nextIp (s.bundle i) = none
  /-- Nothing of an earlier bundle is left to do, as in every state that a run reaches. -/
  idle : s.me.after = .nothing
  /-- The bundle is not the second delay bundle of an ERET, whose effect follows it (R224). -/
  stays : s.me.returns = false

/-! ### Retirement (R34, R35, R41, R117, R412, R413) -/

/-- A berth with one more result landing (R35, R45). -/
def Berth.gets (y : Berth) (d : Dest) (x : BitVec 512) (l : Nat) (fl : FFlags) : Berth :=
  { y with landing := y.landing ++ [{ dest := d, pos := y.pos + l, data := x, flags := fl, wait := .here, buffered := decide (2 ≤ l) }] }

/-- A berth as the retirement of its bundle leaves it: one bundle more, what is due landed, and fetch gone on (R35, R41, R117,
R412). -/
def Berth.retired (y : Berth) (next : Word) : Berth := ({ y with pos := y.pos + 1, retb := y.retb + 1 }).settle.advance next

/-- The state after the retirement of the instruction's bundle, the slot having left state `t` with nothing to do afterwards. -/
def State.retires (s : State) (i : Instr) (t : State) : State :=
  (t.setBerth s.cur s.curB ((t.berth s.cur s.curB).retired s.nextIp)).countBundle s.cur (s.bundle i)

/-- What an instruction that acts on its berth alone leaves unchanged: everything but the berth, the tile's bubble count and
freeze, the field's activity counts, and the model's own counter of free values (R34, R39, R413). -/
structure OnlyBerth (s t : State) : Prop where
  rest : { t with tiles := s.tiles, fields := s.fields, fresh := s.fresh } = s.plain
  tiles : ∀ k, k ≠ s.cur → t.tile k = s.tile k
  tile : { t.tile s.cur with berths := (s.tile s.cur).berths, bubbles := (s.tile s.cur).bubbles } = (s.tile s.cur).thaw
  berths : ∀ b, b ≠ s.curB → t.berth s.cur b = s.berth s.cur b
  fields : ∀ f, { t.field f with activity := (s.field f).activity } = s.field f
  memory : ∀ a, t.byte a = s.byte a
  scratchpads : ∀ k a, t.padByte k a = s.padByte k a

/-- The state with the current tile and its issuing berth replaced, its core not frozen and no extension pending. -/
def State.withTile (s : State) (x : Tile) (y : Berth) : State := s.plain.setTile s.cur (x.thaw.setBerth s.curB y)

/-- What an instruction that acts on memory leaves unchanged beside it: the other berths and tiles, the frames of the tile, and the
registers of the issuing berth but for results that land. -/
structure MemoryAct (s t : State) : Prop where
  berths : ∀ b, b ≠ s.curB → t.berth s.cur b = s.berth s.cur b
  others : ∀ k b, k ≠ s.cur → t.berth k b = s.berth k b
  frames : ∀ k f, (t.tile k).frame f = (s.tile k).frame f

/-- A memory action that stores to no byte. -/
structure Reads (s t : State) : Prop extends MemoryAct s t where
  memory : ∀ a, t.byte a = s.byte a
  scratchpads : ∀ k a, t.padByte k a = s.padByte k a

/-- A memory action that stores `n` bytes of a number to the scratchpad of the current tile, byte `k` at place `place k`, and to no
other byte. -/
structure StoresPad (s t : State) (place : Nat → Nat) (n x : Nat) : Prop extends MemoryAct s t where
  stored : ∀ k < n, t.padByte s.cur (place k) = BitVec.ofNat 8 (x / 2 ^ (8 * k))
  rest : ∀ a, (∀ k < n, a ≠ place k) → t.padByte s.cur a = s.padByte s.cur a
  tiles : ∀ k a, k ≠ s.cur → t.padByte k a = s.padByte k a
  memory : ∀ a, t.byte a = s.byte a

/-- The instruction issues, its slot changes the issuing berth to `y` and nothing else, and its bundle retires. -/
def Acts (i : Instr) (s : State) (y : Berth) : Prop :=
  ∃ t, exec i s = .next t ∧ t.me = y.retired s.nextIp ∧ OnlyBerth s t

/-- The same for one result that lands `l` bundles later with flags (R35, R45). -/
def Lands (i : Instr) (s : State) (d : Dest) (x : BitVec 512) (l : Nat) (fl : FFlags) : Prop := Acts i s (s.ops.gets d x l fl)

/-- A result of 64 bits in a g register. -/
def LandsG (i : Instr) (s : State) (d : GReg) (x : Word) (l : Nat) (fl : FFlags) : Prop := Lands i s (.g d) (x.setWidth 512) l fl

/-- The instruction issues, its slot leaves state `u`, written out in full, and its bundle retires. -/
def Leaves (i : Instr) (s u : State) : Prop := exec i s = .next (s.retires i u)

/-- The tile with a trapped berth waiting for the supervisor (R350). -/
def Tile.queued (x : Tile) (b : Fin 5) : Tile := { x with trapQ := x.trapQ ++ [b] }

/-- The state in which the issuing berth has taken a trap: its results that were due have landed, it issues nothing further, its accesses
are being released, and it waits to be saved and handled (R21, R295, R350). -/
def State.trapped (s : State) (r : TrapRec) : State :=
  { s.withTile (((s.tile s.cur).withRelease s.curB s.uid .sys).queued s.curB) { s.ops with status := .trapSaving, trap := some r } with
    uid := s.uid + 1 }

/-- The state in which the current berth takes a trap after its bundle has retired (R124, R223, R295, R350). -/
def State.trapsAfter (u : State) (r : TrapRec) : State :=
  { u.setTile u.cur ((((u.tile u.cur).withRelease u.curB u.uid .sys).queued u.curB).setBerth u.curB
      { u.me with status := .trapSaving, trap := some r }) with uid := u.uid + 1 }

/-- The instruction's bundle takes a trap, and nothing of it is done (R21, R349, R350). -/
def Traps (i : Instr) (s : State) (r : TrapRec) : Prop := exec i s = .next (s.trapped r)

/-- The illegal-instruction trap of the instruction's slot (R348). -/
def State.illegal (s : State) : TrapRec := mkTrap 0x02 s.ctx.slot s.me.ip 0 s.me.ip

end Sys2Proof.Machine
end

