-- ==== Sys2Proof/Certificates/Slice0/Obligations.lean ====
section
/-!
DEFINITION. Certificates/Slice0/Obligations.lean: the statements for the provers, and the tables of results that they use.
-/
namespace Sys2Proof.Claims
open Sys2Proof.Machine

/-! ### Scalar integers (R89, R106 to R110) -/

/-- What R106 to R110 make of the operands: the register, the value and the landing. The operands are the registers of `y`, `ip` is
the bundle's address, and `imm` gives an immediate's value. -/
def scalarResult (y : Berth) (ip : Word) (imm : Imm14 → Word) : Instr → Option (GReg × Word × Nat)
  | .add d a b => some (d, y.rg a + y.rg b, 1)
  | .sub d a b => some (d, y.rg a - y.rg b, 1)
  | .mul d a b => some (d, y.rg a * y.rg b, 3)
  | .mulh d a b => some (d, BitVec.ofInt 64 ((y.rg a).toInt * (y.rg b).toInt / 2 ^ 64), 3)
  | .mulhu d a b => some (d, BitVec.ofNat 64 ((y.rg a).toNat * (y.rg b).toNat / 2 ^ 64), 3)
  | .and d a b => some (d, y.rg a &&& y.rg b, 1)
  | .or d a b => some (d, y.rg a ||| y.rg b, 1)
  | .xor d a b => some (d, y.rg a ^^^ y.rg b, 1)
  | .andn d a b => some (d, y.rg a &&& ~~~y.rg b, 1)
  | .sll d a b => some (d, y.rg a <<< ((y.rg b).toNat % 64), 1)
  | .srl d a b => some (d, y.rg a >>> ((y.rg b).toNat % 64), 1)
  | .sra d a b => some (d, (y.rg a).sshiftRight ((y.rg b).toNat % 64), 1)
  | .ror d a b => some (d, (y.rg a).rotateRight ((y.rg b).toNat % 64), 1)
  | .sllImm d a n => some (d, y.rg a <<< n.toNat, 1)
  | .srlImm d a n => some (d, y.rg a >>> n.toNat, 1)
  | .sraImm d a n => some (d, (y.rg a).sshiftRight n.toNat, 1)
  | .rorImm d a n => some (d, (y.rg a).rotateRight n.toNat, 1)
  | .min d a b => some (d, BitVec.ofInt 64 (min (y.rg a).toInt (y.rg b).toInt), 1)
  | .max d a b => some (d, BitVec.ofInt 64 (max (y.rg a).toInt (y.rg b).toInt), 1)
  | .minu d a b => some (d, BitVec.ofNat 64 (min (y.rg a).toNat (y.rg b).toNat), 1)
  | .maxu d a b => some (d, BitVec.ofNat 64 (max (y.rg a).toNat (y.rg b).toNat), 1)
  | .slt d a b => some (d, if (y.rg a).toInt < (y.rg b).toInt then 1 else 0, 1)
  | .sltu d a b => some (d, if (y.rg a).toNat < (y.rg b).toNat then 1 else 0, 1)
  | .sel d a b => some (d, if y.rg d = 0 then y.rg b else y.rg a, 1)
  | .madd d a b => some (d, y.rg d + y.rg a * y.rg b, 3)
  | .mov d a | .xmov d a => some (d, y.rg a, 1)
  | .addi d a i => some (d, y.rg a + imm i, 1)
  | .andi d a i => some (d, y.rg a &&& imm i, 1)
  | .ori d a i => some (d, y.rg a ||| imm i, 1)
  | .xori d a i => some (d, y.rg a ^^^ imm i, 1)
  | .lui d i => some (d, imm i * 2 ^ 24, 1)
  | .addpc d i => some (d, ip + imm i, 1)
  | _ => none

/-- The value of an immediate: the 14 bits with their sign, or the 40 bits that an extension makes of them (R27, R28). -/
def immediate (e : Option (BitVec 26)) (i : Imm14) : Word :=
  match e with
  | some v => (v ++ i).signExtend 64
  | none => i.signExtend 64

/-- What R106 and R89 make of a division: the register, the value and the flags. -/
def divideResult (y : Berth) : Instr → Option (GReg × Word × FFlags)
  | .div d a b =>
    some (if y.rg b = 0 then (d, BitVec.allOnes 64, 0x20) else (d, BitVec.ofInt 64 ((y.rg a).toInt.tdiv (y.rg b).toInt), 0))
  | .divu d a b =>
    some (if y.rg b = 0 then (d, BitVec.allOnes 64, 0x20) else (d, BitVec.ofNat 64 ((y.rg a).toNat / (y.rg b).toNat), 0))
  | .rem d a b =>
    some (if y.rg b = 0 then (d, y.rg a, 0x20) else (d, BitVec.ofInt 64 ((y.rg a).toInt.tmod (y.rg b).toInt), 0))
  | .remu d a b =>
    some (if y.rg b = 0 then (d, y.rg a, 0x20) else (d, BitVec.ofNat 64 ((y.rg a).toNat % (y.rg b).toNat), 0))
  | _ => none

end Sys2Proof.Claims

open Sys2Proof Machine Claims

/-- R66, R379, R384, R402, R413, R415, R426: what reset leaves of the special registers, the links' settings and the energy counters
that the spec gives a value for; no tile is powered, no job exists, and memory lists nothing. -/
def Obligations.ResetValues : Prop :=
  let s := State.reset
  (∀ t b, let y := s.berth t b
    y.fflags = 0 ∧ y.ftz = false ∧ y.vlt = 0 ∧ y.latch = false ∧ y.loops = [] ∧ y.xfer = none ∧ y.landing = []) ∧
  (∀ t, (s.tile t).powered = false ∧ (s.tile t).job = 0 ∧ (s.tile t).smpcfg = 0x010 ∧ (s.tile t).cpcfg = 0x080) ∧
  (∀ f, (s.field f).powered = false ∧ (s.field f).w1 = 1 ∧ (s.field f).w2 = 4 ∧ (s.field f).w3 = 1 ∧ (s.field f).arba = 64 ∧
    (s.field f).ackto = 4096 ∧ (s.field f).nretry = 8 ∧ (s.field f).trlogn = 10 ∧ (s.field f).trfire = 0xFFFF ∧
    (s.field f).ewin = 20) ∧
  (∀ q, (s.quay q).deadto = 1000 ∧ (s.quay q).etype = 0x88B5 ∧ (s.quay q).en = false) ∧
  (∀ j, (s.job j).st = .free) ∧ s.per = 1400 ∧ s.tkcnt = 0 ∧ s.gen = 0 ∧ s.orphq = 0 ∧ ∀ a, s.byte a = 0

/-- R426: the state after reset is in order. -/
def Obligations.ResetWf : Prop := State.reset.wf = true

/-- R32: g0 reads as zero and discards what is written to it; g32 and every other register hold what is written. -/
def Obligations.ZeroRegister : Prop :=
  ∀ (y : Berth) x, y.rg 0 = 0 ∧ y.write (.g 0) x = y ∧ (y.write (.g 32) x).rg 32 = x.setWidth 64 ∧
    ∀ d r, d ≠ 0 → (y.write (.g d) x).rg r = if r = d then x.setWidth 64 else y.rg r

/-- R25: p0 reads as all ones and discards what is written to it; the other predicate and the vector registers hold what is written, and
a write to one file leaves the others. -/
def Obligations.RegisterFiles : Prop :=
  ∀ (y : Berth) x, y.rp 0 = BitVec.allOnes 64 ∧ y.write (.p 0) x = y ∧
    (∀ d r, d ≠ 0 → (y.write (.p d) x).rp r = if r = d then x.setWidth 64 else y.rp r) ∧
    (∀ d r, (y.write (.v d) x).rv r = if r = d then x else y.rv r) ∧
    (∀ d r, (y.write (.v d) x).rg r = y.rg r) ∧ (∀ d r, (y.write (.p d) x).rg r = y.rg r) ∧
    (∀ d r, (y.write (.g d) x).rv r = y.rv r) ∧ (∀ d r, (y.write (.p d) x).rv r = y.rv r) ∧
    (∀ d r, (y.write (.g d) x).rp r = y.rp r) ∧ ∀ d r, (y.write (.v d) x).rp r = y.rp r

/-- R35: of a result with landing distance l that nothing else follows into its register, the bundles before the l-th after it read the
old value, and from then on the new; its flags become visible with it (R86). -/
def Obligations.LandingVisible : Prop :=
  ∀ (y : Berth) r x l fl (ns : List Word), 1 ≤ l → y.landing = [] →
    let z := ns.foldl Berth.retired (y.gets (.g r) x l fl)
    (ns.length < l → z.rg r = y.rg r ∧ z.fflags = y.fflags) ∧
    (l ≤ ns.length → z.rg r = (if r = 0 then 0 else x.setWidth 64) ∧ z.fflags = y.fflags ||| fl)

/-- R37: of two results to one register that land at one position the later-issued one is read, and one that lands after a later-issued
result has landed replaces it at its own position. -/
def Obligations.LandingOrder : Prop :=
  ∀ (y : Berth) r x1 x2 l1 l2 (ns ms : List Word), r ≠ 0 → 1 ≤ l1 → 1 ≤ l2 → y.landing = [] → ns.length < l1 →
    let z := ms.foldl Berth.retired ((ns.foldl Berth.retired (y.gets (.g r) x1 l1 0)).gets (.g r) x2 l2 0)
    (l1 ≤ ns.length + l2 → l2 ≤ ms.length → z.rg r = x2.setWidth 64) ∧
    (ns.length + l2 < l1 → l2 ≤ ms.length → ns.length + ms.length < l1 → z.rg r = x2.setWidth 64) ∧
    (ns.length + l2 < l1 → l1 ≤ ns.length + ms.length → z.rg r = x1.setWidth 64)

namespace Sys2Proof.Claims
open Sys2Proof.Machine

/-- The state of a core's cycle before its bundle issues: the cycle is counted, and the streams that next bundles open are open (R205,
R412, R413). -/
def cycling (s : State) : State := (s.coreTick s.cur).openAll s.cur

/-- The same once berth `b` is selected: it is the current berth, and a job berth whose results have come is the one that issued last
(R39, R247). -/
def selected (s : State) (b : Fin 5) : State :=
  let s := { s with curB := b, fresh := s.fresh + 16 }
  if b = 4 ∨ (s.berth s.cur b).late then s else s.setTile s.cur { s.tile s.cur with lastBerth := BitVec.ofNat 2 b.val }

/-- No berth of the current tile has a macro to resume or an ERET that waits for a save (R193, R353). -/
def Settled (s : State) : Prop := (∀ b, (s.berth s.cur b).resume = []) ∧ (s.berth s.cur 4).returning = none

end Sys2Proof.Claims

/-- R15, R34, R39, R44 and R247: a step runs the step that is scheduled; with none, the core of the current tile selects a berth and issues
the bundle at its instruction pointer, and a bundle of one instruction with three NOPs runs that instruction; a core that does not run
issues nothing, one with bubbles left counts one, and one whose frozen berth's results are absent counts a frozen cycle. -/
def Obligations.StepRunsInstruction : Prop :=
  (∀ s i r, s.schedule = i :: r → step s = exec i { s with schedule := r }) ∧
  (∀ s, s.schedule = [] → step s = exec (.bundleIssue s.cur) s) ∧
  (∀ s b w i, s.schedule = [] → s.imx = none → s.coreRuns s.cur = true → (s.tile s.cur).bubbles = 0 → (s.tile s.cur).frozen = none →
    Settled s → let u := cycling s
    (selectOrder (s.tile s.cur).lastBerth).find? (fun c => u.issuable s.cur c) = some b →
    u.fetchBundle s.cur b (u.berth s.cur b).ip = .ok [w, 0, 0, 0x80000000] → decode w = .ok i → (∀ v, i ≠ .imx v) →
    step s = exec i (selected u b)) ∧
  (∀ s n, s.coreRuns n = false → exec (.bundleIssue n) s = .next s) ∧
  (∀ (s : State), s.stuck = none → s.coreRuns s.cur = true → Settled s → let x := s.tile s.cur
    (0 < x.bubbles → ∃ t, exec (.bundleIssue s.cur) s = .next t ∧ (t.tile s.cur).bubbles = x.bubbles - 1 ∧
      (t.tile s.cur).pbub = satInc x.pbub 1 ∧ (t.tile s.cur).berths = x.berths) ∧
    (x.bubbles = 0 → ∀ b, x.frozen = some b → x.berths[b].status = .bound → x.berths[b].late = true →
      ∃ t, exec (.bundleIssue s.cur) s = .next t ∧ (t.tile s.cur).frzc = satInc x.frzc 1 ∧ (t.tile s.cur).berths = x.berths))

/-- R47 to R66: words written out from the encoding tables decode to the instructions that they stand for. -/
def Obligations.DecodeWords : Prop :=
  decode 0x20404600 = .ok (.add 4 1 6) ∧ decode 0x20724013 = .ok (.popc 7 9) ∧ decode 0x2280C020 = .ok (.xmov 40 3) ∧
  decode 0x24307FFB = .ok (.addi 3 1 0x3FFB) ∧ decode 0x60304230 = .ok (.vadd 3 3 1 2) ∧ decode 0x80000000 = .ok .nop ∧
  decode 0x00000012 = .ok .wfe ∧ decode 0x00000018 = .ok .eret ∧ decode 0x00004005 = .ok (.trap 1) ∧ decode 0x0007C002 = .ok (.ret 31)

/-- R47 to R66 and R214: the encoding of a well-formed slot instruction decodes to it, whatever its operands; the two rows of EVCFG share
their words, which decode to the first. -/
def Obligations.DecodeEncode : Prop := ∀ i w, wellFormed i = true → encode i = some w → decode w = .ok (canonical i)

/-- R15, R47 to R66: a word that stands for an instruction is its encoding with the end bit put in, and the instruction is well formed;
so no bit of a word but the end bit is dropped. -/
def Obligations.EncodeDecode : Prop :=
  ∀ w i, decode w = .ok i → wellFormed i = true ∧ encode i = some (w &&& 0x7FFFFFFF#32)

/-- R44 and R47: an instruction with an encoding is one that issues in a slot; an IMX extends the slot after it (R28). -/
def Obligations.SlotsEncode : Prop :=
  ∀ i w, encode i = some w → exec i = issueOne i ∨ ∃ v, i = .imx v

/-- R44, R48 and R66: an instruction alone in its bundle passes the checks of steps 2 to 5 when its registers obey the cluster rule, its
landing distance is not 0, a quad load or store names an even register, it may stand in a delay bundle if it stands in one, it is no
transfer while a loop is active, and the supervisor berth issues it if it is supervisor-only. -/
def Obligations.LoneBundlePasses : Prop :=
  ∀ (i : Instr) (s : State), s.imx = none → (∀ v, i ≠ .imx v) → (form i).clusterOk = true → (form i).land ≠ some 0 →
    ((form i).odd = true → ∀ d, (form i).d = some d → d.toNat % 2 = 0) → ((form i).noDelay = true → s.me.xfer = none) →
    ((form i).transfer = true → s.me.loops = []) → ((form i).sup = true → s.curB = 4) →
    s.issuing.checkBundle s.cur s.curB s.me.ip s.nextIp (s.bundle i) = none

/-- R34, R35, R39, R41 and R413: the retirement of a bundle changes its berth, the tile's bubble count and the field's activity counts, and
nothing else. -/
def Obligations.RetirementFrame : Prop :=
  ∀ (s : State) i (u : State), (s.retires i u).berth s.cur s.curB = (u.berth s.cur s.curB).retired s.nextIp ∧
    (∀ b, b ≠ s.curB → (s.retires i u).berth s.cur b = u.berth s.cur b) ∧
    { (s.retires i u).tile s.cur with berths := (u.tile s.cur).berths, bubbles := (u.tile s.cur).bubbles } = u.tile s.cur ∧
    (∀ k, k ≠ s.cur → (s.retires i u).tile k = u.tile k) ∧
    (∀ f, { (s.retires i u).field f with activity := (u.field f).activity } = u.field f) ∧
    { s.retires i u with tiles := u.tiles, fields := u.fields } = u ∧
    (∀ a, (s.retires i u).byte a = u.byte a) ∧ ∀ k a, (s.retires i u).padByte k a = u.padByte k a

/-- R106 to R110: each register, immediate-count and immediate form lands its value, and changes nothing else. -/
def Sys2Proof.Claims.scalarResultsClaim : Prop :=
  ∀ i s d x l, scalarResult s.ops s.me.ip (immediate s.imx) i = some (d, x, l) → Issues i s → LandsG i s d x l 0

/-- R89 and R106: a division lands the truncated quotient or the remainder after 20 bundles, and a zero divisor gives the results of
R89 with integer DZ. -/
def Sys2Proof.Claims.divisionResultsClaim : Prop :=
  ∀ i s d x fl, divideResult s.ops i = some (d, x, fl) → Issues i s → LandsG i s d x 20 fl

/-- R106: CLZ, CTZ and POPC count the leading zero bits, the trailing zero bits and the one bits of A. -/
def Sys2Proof.Claims.bitCountsClaim : Prop :=
  ∀ s d a,
    (Issues (.clz d a) s → ∃ n ≤ 64, (∀ k, 64 - n ≤ k → (s.ops.rg a).getLsbD k = false) ∧
      (n < 64 → (s.ops.rg a).getLsbD (63 - n) = true) ∧ LandsG (.clz d a) s d (BitVec.ofNat 64 n) 1 0) ∧
    (Issues (.ctz d a) s → ∃ n ≤ 64, (∀ k < n, (s.ops.rg a).getLsbD k = false) ∧
      (n < 64 → (s.ops.rg a).getLsbD n = true) ∧ LandsG (.ctz d a) s d (BitVec.ofNat 64 n) 1 0) ∧
    (Issues (.popc d a) s →
      LandsG (.popc d a) s d (BitVec.ofNat 64 ((List.range 64).countP fun k => (s.ops.rg a).getLsbD k)) 1 0)

/-- R107: EXT, EXTU and INS take the field from bit b[5:0] of width b[11:6] + 1, cut at bit 63: each bit of the result. -/
def Sys2Proof.Claims.fieldFormsClaim : Prop :=
  ∀ s d a b, let p := (s.ops.rg b).toNat % 64
    let w := min ((s.ops.rg b).toNat / 64 % 64 + 1) (64 - p)
    (Issues (.ext d a b) s → ∃ x : Word, (∀ k < 64, x.getLsbD k = (s.ops.rg a).getLsbD (p + min k (w - 1))) ∧
      LandsG (.ext d a b) s d x 1 0) ∧
    (Issues (.extu d a b) s → ∃ x : Word, (∀ k < 64, x.getLsbD k = (decide (k < w) && (s.ops.rg a).getLsbD (p + k))) ∧
      LandsG (.extu d a b) s d x 1 0) ∧
    (Issues (.ins d a b) s → ∃ x : Word,
      (∀ k < 64, x.getLsbD k = if p ≤ k ∧ k < p + w then (s.ops.rg a).getLsbD (k - p) else (s.ops.rg d).getLsbD k) ∧
      LandsG (.ins d a b) s d x 1 0)

/-- R106 to R110: each register, immediate-count and immediate form lands its value, and changes nothing else; R89 and R106: a division lands the
truncated quotient or the remainder after 20 bundles, and a zero divisor gives the results of R89 with integer DZ; R106: CLZ, CTZ and POPC count the
leading zero bits, the trailing zero bits and the one bits of A; R107: EXT, EXTU and INS take the field from bit b[5:0] of width b[11:6] + 1, cut at
bit 63: each bit of the result. -/
def Obligations.IntegerResults : Prop :=
  Claims.scalarResultsClaim ∧ Claims.divisionResultsClaim ∧ Claims.bitCountsClaim ∧ Claims.fieldFormsClaim

namespace Sys2Proof.Claims
open Sys2Proof.Machine

/-! ### Scalar floating point (R111, R112) -/

/-- The format that F selects (R56). -/
def scalarFormat : FFmt → FloatFmt
  | .f32 => fp32
  | .f64 => fp64

/-- What R111 and R112 make of the operands: the register, the pattern with its flags, and the landing. The operands are the low bits
of the registers of `y`, read under its FCTL (R81, R83). -/
def floatResult (y : Berth) : Instr → Option (GReg × (Nat × FFlags) × Nat)
  | .fadd f d a b => some (d, roundRes (scalarFormat f) y.ftz ((val f a).add (val f b)), 4)
  | .fsub f d a b => some (d, roundRes (scalarFormat f) y.ftz ((val f a).add (val f b).negate), 4)
  | .fmul f d a b => some (d, roundRes (scalarFormat f) y.ftz ((val f a).mul (val f b)), 4)
  | .ffma f d a b => some (d, roundRes (scalarFormat f) y.ftz ((val f a).fma (val f b) (val f d)), 4)
  | .fdiv f d a b => some (d, fdivOp (scalarFormat f) y.ftz (low f a) (low f b), 14)
  | .fsqrt f d a => some (d, fsqrtOp (scalarFormat f) y.ftz (low f a), 14)
  | .fmin f d a b => some (d, fminmaxOp (scalarFormat f) y.ftz false (low f a) (low f b), 2)
  | .fmax f d a b => some (d, fminmaxOp (scalarFormat f) y.ftz true (low f a) (low f b), 2)
  | .fcmp c f d a b =>
    let r := fcmpOp (scalarFormat f) y.ftz c (low f a) (low f b)
    some (d, (if r.1 then 1 else 0, r.2), 2)
  | .fcvt .other f d a =>
    some (d, roundRes (match f with | .f32 => fp64 | .f64 => fp32) y.ftz (val f a, (val f a).isSnan), 4)
  | .fcvt .bf16 f d a => some (d, roundRes Machine.bf16 y.ftz (val f a, (val f a).isSnan), 4)
  | .fcvt .fp16 f d a => some (d, roundRes Machine.fp16 y.ftz (val f a, (val f a).isSnan), 4)
  | .fcvt .i64 f d a => some (d, fToInt (scalarFormat f) y.ftz 64 false (low f a), 4)
  | .fcvt .ui64 f d a => some (d, fToInt (scalarFormat f) y.ftz 64 true (low f a), 4)
  | .fcvt .fi64 f d a =>
    some (d, roundNE (scalarFormat f) y.ftz (decide ((y.rg a).toInt < 0)) (y.rg a).toInt.natAbs 0 false, 4)
  | .fcvt .fui64 f d a => some (d, roundNE (scalarFormat f) y.ftz false (y.rg a).toNat 0 false, 4)
  | .fabs .f32 d a => some (d, ((y.rg a).toNat % 2 ^ 31, 0), 1)
  | .fabs .f64 d a => some (d, ((y.rg a).toNat % 2 ^ 63, 0), 1)
  | .fneg .f32 d a => some (d, (((y.rg a).setWidth 32 ^^^ 0x80000000).toNat, 0), 1)
  | .fneg .f64 d a => some (d, ((y.rg a ^^^ 0x8000000000000000).toNat, 0), 1)
  | _ => none
where
  low (f : FFmt) (a : GReg) : Nat := (y.rg a).toNat % 2 ^ (scalarFormat f).width
  val (f : FFmt) (a : GReg) : FVal := (scalarFormat f).decode y.ftz (low f a)

/-! ### Transfers (R41, R54, R113) -/

/-- The address that a displacement gives: the bundle's own plus DISP × 4 (R26). -/
def displaced (ip : Word) (d : Disp) : Word := ip + d.signExtend 64 * 4

/-- What R113 makes of a transfer that links nothing: its target when it is taken, and whether it ends the loops that it leaves. -/
def transferResult (y : Berth) (ip : Word) : Instr → Option (Option Word × Bool)
  | .br d => some (some (displaced ip d), true)
  | .jmp d => some (some (BitVec.ofNat 64 wbase + d.signExtend 64 * 4), true)
  | .jmpi a | .ret a => some (some (y.rg a), false)
  | .brnZ a d => some (if y.rg a = 0 then some (displaced ip d) else none, true)
  | .brnNz a d => some (if y.rg a = 0 then none else some (displaced ip d), true)
  | .brnP c p d =>
    let holds : Bool := match c with
      | .p => (y.rp p).getLsbD 0
      | .np => !(y.rp p).getLsbD 0
      | .any => decide (y.rp p ≠ 0)
      | .none => decide (y.rp p = 0)
    some (if holds then some (displaced ip d) else none, true)
  | _ => none

/-- The berth with a transfer decided, its two delay bundles to come. -/
def turning (y : Berth) (target : Option Word) (ends eret : Bool) : Berth :=
  { y with xfer := some { target, left := 3, endsLoops := ends, eret } }

/-! ### Loops (R115, R116) -/

/-- The loop that LOOP or LOOPI names: its count and its exit. -/
def loopOf (y : Berth) (ip : Word) : Instr → Option (Word × Word)
  | .loop d x => some (y.rg d, displaced ip x)
  | .loopi n x => some (BitVec.ofNat 64 (n.toNat + 1), displaced ip x)
  | _ => none

/-- Whether R116 lets the loop open: its body lies after the bundle and within the loop around it, at most four are active, and no
active loop ends with this bundle. -/
def loopLegal (ls : List LoopRec) (next exit : Word) : Prop :=
  next.toNat < exit.toNat ∧ ls.length < 4 ∧ (∀ l r, ls = l :: r → exit.toNat ≤ l.exit.toNat) ∧ ∀ l ∈ ls, l.exit ≠ next

end Sys2Proof.Claims

/-- R111 and R112: each scalar floating-point form lands the rounded result of its exact value with its flags. -/
def Obligations.FloatResults : Prop :=
  ∀ i s d r l, floatResult s.ops i = some (d, r, l) → Issues i s → LandsG i s d (BitVec.ofNat 64 r.1) l r.2

/-- R41 and R113: a transfer decides its target from the pre-bundle state and leaves all else unchanged. -/
def Sys2Proof.Claims.transfersClaim : Prop :=
  ∀ i s t e, transferResult s.ops s.me.ip i = some (t, e) → Issues i s → Acts i s (turning s.ops t e false)

/-- R41: two delay bundles follow a transfer; then fetch goes on at the target of one that is taken, and after the second delay bundle
otherwise. -/
def Sys2Proof.Claims.transferTakesEffectClaim : Prop :=
  ∀ (y : Berth) t e n1 n2 n3, y.after = .nothing → y.loops = [] →
    let z := ((turning y t e false).retired n1).retired n2
    ((turning y t e false).retired n1).ip = n1 ∧ z.ip = n2 ∧ (z.retired n3).ip = t.getD n3 ∧ (z.retired n3).xfer = none

/-- R113: CALL decides its target and lands the address of the bundle after its second delay bundle. -/
def Sys2Proof.Claims.callClaim : Prop :=
  ∀ s d x, Issues (.call d x) s →
    let link := s.issuing.nextBundle s.cur s.curB (s.issuing.nextBundle s.cur s.curB s.nextIp)
    Acts (.call d x) s (turning (s.ops.gets (.g d) (link.setWidth 512) 1 0) (some (displaced s.me.ip x)) false false)

/-- R41 and R113: a transfer decides its target from the pre-bundle state and leaves all else unchanged; R41: two delay bundles follow a transfer;
then fetch goes on at the target of one that is taken, and after the second delay bundle otherwise; R113: CALL decides its target and lands the
address of the bundle after its second delay bundle. -/
def Obligations.Transfers : Prop :=
  Claims.transfersClaim ∧ Claims.transferTakesEffectClaim ∧ Claims.callClaim

/-- R115 and R116: LOOP and LOOPI with a count open a loop over the bundles up to the exit; LOOP with count 0 goes on at the exit. -/
def Sys2Proof.Claims.loopsClaim : Prop :=
  ∀ i s n exit, loopOf s.ops s.me.ip i = some (n, exit) → loopLegal s.ops.loops s.nextIp exit → Issues i s →
    (n ≠ 0 → Acts i s { s.ops with loops := { start := s.nextIp, exit, count := n, lc := 0 } :: s.ops.loops }) ∧
    (n = 0 → ∃ t, exec i s = .next t ∧ OnlyBerth s t ∧
      t.me = { ({ s.ops with after := .jump exit } : Berth).retired s.nextIp with after := .nothing })

/-- R117: the bundle that ends a loop goes back to its start while its count is above 1, and falls through after the last iteration. -/
def Sys2Proof.Claims.loopEndClaim : Prop :=
  ∀ (y : Berth) l ls, y.after = .nothing → y.xfer = none → y.loops = l :: ls →
    (∀ n, n ≠ l.exit → (y.retired n).ip = n ∧ (y.retired n).loops = y.loops) ∧
    (l.count ≠ 1 → (y.retired l.exit).ip = l.start ∧
      (y.retired l.exit).loops = { l with count := l.count - 1, lc := l.lc + 1 } :: ls) ∧
    (l.count = 1 → ls = [] → (y.retired l.exit).ip = l.exit ∧ (y.retired l.exit).loops = [])

/-- R115 and R116: LOOP and LOOPI with a count open a loop over the bundles up to the exit; LOOP with count 0 goes on at the exit; R117: the bundle
that ends a loop goes back to its start while its count is above 1, and falls through after the last iteration. -/
def Obligations.Loops : Prop :=
  Claims.loopsClaim ∧ Claims.loopEndClaim

namespace Sys2Proof.Claims
open Sys2Proof.Machine

/-! ### Special registers (R12, R13, R53, R66, R98, R120, R328, R344, R351) -/

/-- What a special register of the current berth reads; TAG and FPTR read 0 in the supervisor berth, which is bound to no token: the
model's choice (log entry 46). -/
def specialValue (s : State) : SpecReg → Word
  | .tag => if s.curB = 4 then 0 else s.ops.tag.setWidth 64
  | .fptr => if s.curB = 4 then 0 else BitVec.ofNat 64 (wbase + frameBase + 160 * s.ops.frame.toNat)
  | .berthno => BitVec.ofNat 64 s.curB.val
  | .jobid => (s.tile s.cur).job.setWidth 64
  | .lc k => match s.ops.loops.reverse[k.toNat]? with | some l => l.lc | none => 0
  | .fflags => s.ops.fflags.setWidth 64
  | .fctl => if s.ops.ftz then 1 else 0
  | .vlt => s.ops.vlt.setWidth 64
  | .fmt k => s.ops.fmt[k.toFin]
  | .shape k => s.ops.shape[k.toFin]
  | .cctl k => chainWord (s.tile s.cur).chains[k.toFin]
  | .clim k => (s.tile s.cur).chains[k.toFin].clim
  | .ctmpl k => (s.tile s.cur).chains[k.toFin].ctmpl.setWidth 64
  | .ctag k => (s.tile s.cur).chains[k.toFin].ctag.setWidth 64
  | .cpos k => (s.tile s.cur).chains[k.toFin].cpos
  | .cemit k => (s.tile s.cur).chains[k.toFin].cemit
  | .evctl => BitVec.ofNat 64 ((if (s.tile s.cur).bank.late then 2 else 0) + (if (s.tile s.cur).bank.src then 1 else 0))
  | .evnow => (s.tile s.cur).bank.t.setWidth 64
  | .evqlen => BitVec.ofNat 64 ((s.tile s.cur).bank.q.length % 2 ^ 13)
  | .evdrop => (s.tile s.cur).bank.drop.setWidth 64
  | .evans => (s.tile s.cur).bank.ans.setWidth 64
  | .evwl k => (s.tile s.cur).bank.wl[k.toFin]
  | .evwh k => (s.tile s.cur).bank.wh[k.toFin]
  | .pbub => (s.tile s.cur).pbub.setWidth 64
  | .frzc => (s.tile s.cur).frzc.setWidth 64
  | .vhaz => (s.tile s.cur).vhaz.setWidth 64
  | .latev => (s.tile s.cur).latev.setWidth 64
  | .cyc => (s.field (s.cur / 2048)).cyc
  | .retb => s.ops.retb
  | .enjob => BitVec.ofNat 64 (SMap.get 0 (s.field (s.cur / 2048)).jobEnergy (s.tile s.cur).job.toNat / 2 ^ 32)
  | .enfld => BitVec.ofNat 64 ((s.field (s.cur / 2048)).energy / 2 ^ 32)
  | .svec => (s.tile s.cur).svec.setWidth 64
  | .scause => (s.tile s.cur).scause
  | .sbad => (s.tile s.cur).sbad
  | .sdet => (s.tile s.cur).sdet
  | .sberth => (s.tile s.cur).sberth
  | .ssave => (s.tile s.cur).ssave.setWidth 64
  | .sstat =>
    BitVec.ofNat 64 ((s.tile s.cur).trapQ.length % 8 * 4 + (if (∃ b, (s.berth s.cur b).status = .held) then 2 else 0)
      + (if (s.tile s.cur).handling.isSome then 1 else 0))
  | .esoftc => (s.field (s.cur / 2048)).esoft.setWidth 64
  | .ehardc => (s.field (s.cur / 2048)).ehard.setWidth 64
  | .ejlimc => (s.job (s.tile s.cur).job.toNat).elim.setWidth 64
  | .estatc =>
    let f := s.field (s.cur / 2048)
    BitVec.ofNat 64 ((f.energy - f.energyBase) / 2 ^ 32 % 2 ^ 32 * 2 ^ 32 + (if (s.tile s.cur).job ∈ f.overJobs then 4 else 0)
      + (if f.hard || f.holdHard || f.holdHeat then 2 else 0) + (if f.soft || f.holdSoft then 1 else 0))
  | .ewpos => BitVec.ofNat 64 ((s.field (s.cur / 2048)).cyc.toNat % 2 ^ (s.field (s.cur / 2048)).wlog.toNat)
where
  /-- CCTL: PAUSED, DONE, RUN, ISLOT and DEPTH (R120). -/
  chainWord (c : Chain) : Word :=
    BitVec.ofNat 64 ((if c.paused then 2 ^ 11 else 0) + (if c.done then 2 ^ 10 else 0) + (if c.run then 2 ^ 9 else 0)
      + c.islot.toNat * 4 + c.depth.toNat)

/-- A counter that reading clears: its register, and the tile with it cleared (R12). -/
def clearing (x : Tile) : RscReg → SpecReg × Tile
  | .pbub => (.pbub, { x with pbub := 0 })
  | .frzc => (.frzc, { x with frzc := 0 })
  | .vhaz => (.vhaz, { x with vhaz := 0 })
  | .latev => (.latev, { x with latev := 0 })
  | .evdrop => (.evdrop, { x with bank := { x.bank with drop := 0 } })
  | .evans => (.evans, { x with
      bank := { x.bank with ans := 0 }, marks := x.marks.map fun m => if m.src = .claim then { m with joined := BitVec.allOnes 5 } else m })

/-- A chain's fields changed, unless it runs (R120). -/
def chainWrite (x : Tile) (k : BitVec 2) (f : Chain → Chain) : Tile :=
  if (x.chains[k.toFin]).run then x else { x with chains := x.chains.set k.toFin (f x.chains[k.toFin]) }

/-- What a write of a word to a special register makes of the tile and the berth; none where the word sets a reserved bit. A write of
a read-only register has no effect. -/
def specialWrite (x : Tile) (y : Berth) (w : Word) : SpecReg → Option (Tile × Berth)
  | .fflags => if w.toNat < 2 ^ 6 then some (x, { y with fflags := w.setWidth 6 }) else none
  | .fctl => if w.toNat < 2 then some (x, { y with ftz := w.getLsbD 0 }) else none
  | .vlt => if w.toNat < 2 ^ 12 then some (x, { y with vlt := w.setWidth 12 }) else none
  | .clim k => if w.toNat < 2 ^ 56 then some (chainWrite x k fun c => { c with clim := w }, y) else none
  | .ctmpl k => if w.toNat < 2 ^ 16 then some (chainWrite x k fun c => { c with ctmpl := w.setWidth 16 }, y) else none
  | .evwl k =>
    if w &&& 0x7F000000FFF00000 = 0 then some ({ x with bank := { x.bank with wl := x.bank.wl.set k.toFin w } }, y) else none
  | .svec => if w.toNat < 2 ^ 19 then some ({ x with svec := w.setWidth 19 }, y) else none
  | .ssave => if w.toNat < 2 ^ 19 then some ({ x with ssave := w.setWidth 19 }, y) else none
  | .sberth => if w.toNat < 2 ^ 62 then some ({ x with sberth := (x.sberth &&& ~~~7) ||| (w &&& 7) }, y) else none
  | _ => some (x, y)

/-- Whether a word may stand in an FMT register: no reserved bit, NSP below 5, and PLANES, RND and LAYOUT as TYPE asks (R13, R97,
R98). -/
def formatWord (w : Word) : Prop :=
  w.toNat < 2 ^ 11 ∧ (Fmt.ofEntry w).nsp < 5 ∧
    (if (Fmt.ofEntry w).typ = 3 then 2 ≤ (Fmt.ofEntry w).planes ∧ (Fmt.ofEntry w).planes ≤ 8
     else (Fmt.ofEntry w).planes = 0 ∧ (Fmt.ofEntry w).rnd = false ∧ (Fmt.ofEntry w).packed = false)

/-- Whether a word may stand in a SHAPE register: no reserved bit, and T8 ≤ T16 ≤ T32 (R344). -/
def shapeWord (w : Word) : Prop :=
  w.toNat < 2 ^ 48 ∧ w.extractLsb' 32 16 ≤ w.extractLsb' 16 16 ∧ w.extractLsb' 16 16 ≤ w.extractLsb' 0 16

end Sys2Proof.Claims

/-- R53 and R66: CSRR lands the register's value; LCk of an inactive depth reads 0. -/
def Sys2Proof.Claims.specialReadsClaim : Prop := ∀ s d r, Issues (.csrr d r) s → LandsG (.csrr d r) s d (specialValue s r) 1 0

/-- R12, R53 and R341: CSRR of a counter that reading clears lands its value and leaves it 0; with EVANS the expert bytes of the claims that
it counted are joined for every berth. -/
def Sys2Proof.Claims.specialReadsClearClaim : Prop :=
  ∀ s d r, Issues (.csrrRsc d r) s → let x := specialValue s (clearing (s.tile s.cur) r).1
    Leaves (.csrrRsc d r) s (s.withTile (clearing (s.tile s.cur) r).2 (s.ops.gets (.g d) (x.setWidth 512) 1 0))

/-- R53 and R66: CSRR lands the register's value; LCk of an inactive depth reads 0; R12, R53 and R341: CSRR of a counter that reading clears lands
its value and leaves it 0; with EVANS the expert bytes of the claims that it counted are joined for every berth. -/
def Obligations.SpecialReads : Prop :=
  Claims.specialReadsClaim ∧ Claims.specialReadsClearClaim

/-- R11, R13 and R53: CSRW writes the register's fields; a word that sets a reserved bit traps with nothing written. -/
def Sys2Proof.Claims.specialWritesClaim : Prop :=
  ∀ s r d, Issues (.csrw r d) s →
    (∀ x y, specialWrite (s.tile s.cur) s.ops (s.ops.rg d) r = some (x, y) → Leaves (.csrw r d) s (s.withTile x y)) ∧
    (s.curB ≠ 4 → specialWrite (s.tile s.cur) s.ops (s.ops.rg d) r = none → Traps (.csrw r d) s s.illegal)

/-- R98 and R344: CSRW of FMTk and SHAPEk writes a legal entry and traps on any other. -/
def Sys2Proof.Claims.tableWritesClaim : Prop :=
  (∀ s k d, Issues (.csrwFmt k d) s →
    (formatWord (s.ops.rg d) → Acts (.csrwFmt k d) s { s.ops with fmt := s.ops.fmt.set k.toFin (s.ops.rg d) }) ∧
    (s.curB ≠ 4 → ¬formatWord (s.ops.rg d) → Traps (.csrwFmt k d) s s.illegal)) ∧
  (∀ s k d, Issues (.csrwShape k d) s →
    (shapeWord (s.ops.rg d) → Acts (.csrwShape k d) s { s.ops with shape := s.ops.shape.set k.toFin (s.ops.rg d) }) ∧
    (s.curB ≠ 4 → ¬shapeWord (s.ops.rg d) → Traps (.csrwShape k d) s s.illegal))

/-- R11, R13 and R53: CSRW writes the register's fields; a word that sets a reserved bit traps with nothing written; R98 and R344: CSRW of FMTk and
SHAPEk writes a legal entry and traps on any other. -/
def Obligations.SpecialWrites : Prop :=
  Claims.specialWritesClaim ∧ Claims.tableWritesClaim

/-- R120 and R122: CSRW of CCTLc writes ISLOT and DEPTH of a chain that does not run, DONE clears on writing 1, and writing 1 to RUN
of a running chain stops it and abandons its paused emission. -/
def Sys2Proof.Claims.chainControlClaim : Prop :=
  ∀ s k d, Issues (.csrwCctl k d) s → let w := s.ops.rg d
    let x := s.tile s.cur
    let c := x.chains[k.toFin]
    w &&& 0xFFFFFFFFFFFFF1C0 = 0 →
      (c.run = false → Leaves (.csrwCctl k d) s (s.withTile { x with
        chains := x.chains.set k.toFin { c with islot := w.extractLsb' 2 4, depth := w.extractLsb' 0 2,
                                                done := c.done && !w.getLsbD 10 } } s.ops)) ∧
      (c.run = true → w.getLsbD 9 = false → Leaves (.csrwCctl k d) s (s.withTile { x with
        chains := x.chains.set k.toFin { c with done := c.done && !w.getLsbD 10 } } s.ops)) ∧
      (c.run = true → w.getLsbD 9 = true → Leaves (.csrwCctl k d) s (s.withTile { x with
        chains := x.chains.set k.toFin { c with done := c.done && !w.getLsbD 10, run := false, paused := false },
        spawns := x.spawns.filter fun e => e.chain != some k } s.ops))

/-- R327 and R328: CSRW of EVCTL writes SRC and LATE, the write that sets SRC setting T to TKCNT; CSRW of EVWHk writes a window that
fits the bank and traps on any other. -/
def Sys2Proof.Claims.bankControlClaim : Prop :=
  (∀ s d, Issues (.csrwEvctl d) s → (s.ops.rg d).toNat < 4 →
    let x := s.tile s.cur
    let w := s.ops.rg d
    ∃ k, (k.t = if w.getLsbD 0 = true ∧ x.bank.src = false then s.tkcnt else x.bank.t) ∧ k.entries = x.bank.entries ∧
      k.q = x.bank.q ∧ k.wl = x.bank.wl ∧ k.wh = x.bank.wh ∧ k.src = w.getLsbD 0 ∧ k.late = w.getLsbD 1 ∧
      Leaves (.csrwEvctl d) s (s.withTile { x with bank := k } s.ops)) ∧
  (∀ s k d, Issues (.csrwEvwh k d) s → let w := s.ops.rg d
    (w.toNat < 2 ^ 27 → (w.extractLsb' 0 13).toNat + (w.extractLsb' 13 14).toNat ≤ 8192 → Leaves (.csrwEvwh k d) s
      (s.withTile { s.tile s.cur with bank := { (s.tile s.cur).bank with wh := (s.tile s.cur).bank.wh.set k.toFin w } } s.ops)) ∧
    (s.curB ≠ 4 → (2 ^ 27 ≤ w.toNat ∨ 8192 < (w.extractLsb' 0 13).toNat + (w.extractLsb' 13 14).toNat) →
      Traps (.csrwEvwh k d) s s.illegal))

/-- R122 and R248: KCHAIN starts a chain that does not run, for a template that is placed and whose slot takes an index. -/
def Sys2Proof.Claims.chainStartClaim : Prop :=
  ∀ s a b m, Issues (.kchain a b) s → let k := (s.ops.rg a).extractLsb' 0 2
    let x := s.tile s.cur
    let c := x.chains[k.toFin]
    c.run = false → s.tmpl s.cur c.ctmpl = some m → c.islot.toNat < m.nslot.toNat → m.list ≠ [] → m.kind c.islot.toNat = 2 →
    Leaves (.kchain a b) s (s.withTile { x with
      chains := x.chains.set k.toFin { c with ctag := (s.ops.rg b).extractLsb' 0 32, cpos := 0, cemit := 0, done := false,
                                              run := true } } s.ops)

/-- R120 and R122: CSRW of CCTLc writes ISLOT and DEPTH of a chain that does not run, DONE clears on writing 1, and writing 1 to RUN of a running
chain stops it and abandons its paused emission; R327 and R328: CSRW of EVCTL writes SRC and LATE, the write that sets SRC setting T to TKCNT; CSRW
of EVWHk writes a window that fits the bank and traps on any other; R122 and R248: KCHAIN starts a chain that does not run, for a template that is
placed and whose slot takes an index. -/
def Obligations.ChainAndBankControl : Prop :=
  Claims.chainControlClaim ∧ Claims.bankControlClaim ∧ Claims.chainStartClaim

/-- R28, R52, R221 and R224: NOP changes nothing but the counts of its retirement, IMX waits for the slot that it extends, WFE clears
the wait latch, and ERET decides a transfer with two delay bundles. -/
def Sys2Proof.Claims.quietControlClaim : Prop :=
  (∀ s, Issues .nop s → Acts .nop s s.ops) ∧
  (∀ s v, s.imx = none → exec (.imx v) s = .next { s with imx := some v }) ∧
  (∀ s, Issues .wfe s → (∃ t, exec .wfe s = .next t ∧ Reads s t ∧ t.me = ({ s.ops with latch := false } : Berth).retired s.nextIp) ∧
    ((∀ w ∈ s.notices, ¬(w.t = s.cur ∧ w.b = s.curB ∧ w.bind = s.me.bind)) → Acts .wfe s { s.ops with latch := false })) ∧
  (∀ s, Issues .eret s → Acts .eret s (turning s.ops none false true))

/-- R124, R223 and R350: after its bundle has retired, TRAP or BRK of a job berth takes the software or the breakpoint trap with A as
its detail. -/
def Sys2Proof.Claims.trapsByChoiceClaim : Prop :=
  ∀ s a, s.curB ≠ 4 →
    (Issues (.trap a) s →
      exec (.trap a) s = .next ((s.retires (.trap a) s.issuing).trapsAfter (mkTrap 0x0C 0 0 (s.ops.rg a) s.me.ip))) ∧
    (Issues (.brk a) s →
      exec (.brk a) s = .next ((s.retires (.brk a) s.issuing).trapsAfter (mkTrap 0x0D 0 0 (s.ops.rg a) s.me.ip)))

/-- R224 and R405: HALT stops the core once its bundle has retired. -/
def Sys2Proof.Claims.haltClaim : Prop :=
  ∀ s, Issues .halt s → ∃ t, exec .halt s = .next t ∧ t.me = s.ops.retired s.nextIp ∧
    (t.tile s.cur).halted = true ∧ (t.tile s.cur).stopped = true ∧ t.coreRuns s.cur = false

/-- R354: TRAP in the supervisor berth, while it handles no trap, does nothing but retire. -/
def Sys2Proof.Claims.supervisorTrapClaim : Prop :=
  ∀ s a, s.curB = 4 → (s.tile s.cur).handling = none → Issues (.trap a) s → Acts (.trap a) s s.ops

/-- R28, R52, R221 and R224: NOP changes nothing but the counts of its retirement, IMX waits for the slot that it extends, WFE clears the wait
latch, and ERET decides a transfer with two delay bundles; R124, R223 and R350: after its bundle has retired, TRAP or BRK of a job berth takes the
software or the breakpoint trap with A as its detail; R224 and R405: HALT stops the core once its bundle has retired; R354: TRAP in the supervisor
berth, while it handles no trap, does nothing but retire. -/
def Obligations.ControlAndTraps : Prop :=
  Claims.quietControlClaim ∧ Claims.trapsByChoiceClaim ∧ Claims.haltClaim ∧ Claims.supervisorTrapClaim

namespace Sys2Proof.Claims
open Sys2Proof.Machine

/-- No two addresses share a place in memory: so it is while no channel range is in use, and while those in use keep apart (R304). -/
def Apart (s : State) : Prop := ∀ x y, s.cell x = s.cell y → x = y

/-- What the end of a binding leaves: its results still landing, its loops and its transfer are discarded, its berth is free unless
a macro still uses its z tiles, one frame has changed, and everything of other berths, frames and tiles is unchanged, the bytes of memory
and of the scratchpads included (R123). -/
structure Ended (s t : State) (fr : Frame) : Prop where
  status : (∀ m, (s.me.hd m).active = false) → t.me.status = .free
  unbound : t.me.status = .free ∨ t.me.status = .ending
  dropped : t.me.landing = [] ∧ t.me.loops = [] ∧ t.me.xfer = none
  frame : (t.tile s.cur).frame s.me.frame.toNat = fr
  frames : ∀ f, f ≠ s.me.frame.toNat → (t.tile s.cur).frame f = (s.tile s.cur).frame f
  berths : ∀ b, b ≠ s.curB → t.berth s.cur b = s.berth s.cur b
  tiles : ∀ k, k ≠ s.cur → t.tile k = s.tile k
  memory : ∀ a, t.byte a = s.byte a
  scratchpads : ∀ k a, t.padByte k a = s.padByte k a

end Sys2Proof.Claims

/-- R123: DONE ends the binding and releases its frame, here one with no subscription, while nothing waits for a frame. -/
def Sys2Proof.Claims.doneClaim : Prop :=
  ∀ s, s.curB ≠ 4 → Issues .done s → (∀ r ∈ (s.tile s.cur).subs, r.frame ≠ s.me.frame) → (s.tile s.cur).spawns = [] →
    ∃ t, exec .done s = .next t ∧ Ended s t { (s.tile s.cur).frame s.me.frame.toNat with st := .free }

/-- R123 and R242: YIELD ends the binding, and its token is ready again at the bundle sequentially after, with AGE 0 and its tag and
slots kept. -/
def Sys2Proof.Claims.yieldClaim : Prop :=
  ∀ s, s.curB ≠ 4 → Issues .yield s →
    ∃ t, exec .yield s = .next t ∧
      Ended s t { (s.tile s.cur).frame s.me.frame.toNat with st := .ready, age := 0, ip := s.nextIp.setWidth 19 }

/-- R123: DONE ends the binding and releases its frame, here one with no subscription, while nothing waits for a frame; R123 and R242: YIELD ends
the binding, and its token is ready again at the bundle sequentially after, with AGE 0 and its tag and slots kept. -/
def Obligations.DoneAndYield : Prop :=
  Claims.doneClaim ∧ Claims.yieldClaim

/-- R222: SYS posts record 0x30 with A and B to the job's service queue, when its queue lies in populated memory. -/
def Sys2Proof.Claims.serviceRequestClaim : Prop :=
  ∀ s a b, Issues (.sys a b) s →
    let u := s.issuing.postQueue (s.jobOf s.cur).sq
      { s.bindRec s.cur s.curB 0x30 with w4 := s.ops.rg a, w5 := s.ops.rg b }
    u.stuck = none → Leaves (.sys a b) s u

/-- R357: a record posted to a queue with room is written at the place of PROD, and PROD goes up by 1; no other byte changes. -/
def Sys2Proof.Claims.queuePostClaim : Prop :=
  ∀ (s : State) (h : Word) r, Apart s → h ≠ 0 → s.queueRoom h.toNat = true →
    let a := (s.pw h.toNat).toNat + 64 * ((s.pw (h.toNat + 16)).toNat % 2 ^ 32 % 2 ^ ((s.pw (h.toNat + 8)).toNat % 32))
    populatedRun h.toNat 64 = true → populatedRun a 64 = true → (a + 64 ≤ h.toNat + 16 ∨ h.toNat + 24 ≤ a) →
    let t := s.postQueue h r
    t.stuck = s.stuck ∧ (∀ k, k < 8 → t.pw (a + 8 * k) = (recWords s r false).getD k 0) ∧
      t.pw (h.toNat + 16) = BitVec.ofNat 64 (((s.pw (h.toNat + 16)).toNat + 1) % 2 ^ 32) ∧
      ∀ x, (x < a ∨ a + 64 ≤ x) → (x < h.toNat + 16 ∨ h.toNat + 24 ≤ x) → t.byte x = s.byte x

/-- R222: SYS posts record 0x30 with A and B to the job's service queue, when its queue lies in populated memory; R357: a record posted to a queue
with room is written at the place of PROD, and PROD goes up by 1; no other byte changes. -/
def Obligations.ServiceRequest : Prop :=
  Claims.serviceRequestClaim ∧ Claims.queuePostClaim

/-- R224 and R312: TLBI drops the translations of the tile's job, for one page or for all of them, at the tile or everywhere. -/
def Sys2Proof.Claims.translationInvalidateClaim : Prop :=
  ∀ s a b, Issues (.tlbi a b) s → let e := (s.ops.rg b).toNat
    e < 4 → ∃ t, exec (.tlbi a b) s = .next t ∧ t.me = s.ops.retired s.nextIp ∧ (∀ x, t.byte x = s.byte x) ∧
      (∀ k x, t.padByte k x = s.padByte k x) ∧
      let job := (s.tile s.cur).job
      let gone (x : TlbEnt) : Bool := if e % 2 = 0 then x.covers job (eaVa (s.ops.rg a)) else x.job == job
      (∀ k, k = s.cur ∨ (2 ≤ e ∧ (s.tile k).job = job) → (t.tile k).tlb = (s.tile k).tlb.filter fun x => !gone x) ∧
      (∀ k, k ≠ s.cur → ¬(2 ≤ e ∧ (s.tile k).job = job) → (t.tile k).tlb = (s.tile k).tlb) ∧
      (∀ p, (t.spur p).tc = if 2 ≤ e then (s.spur p).tc.filter fun x => !gone x else (s.spur p).tc)

/-- R224 and R366: TPRE stops a job berth that is bound, to be saved, and does nothing to another. -/
def Sys2Proof.Claims.preemptClaim : Prop :=
  ∀ s a, s.curB = 4 → Issues (.tpre a) s → ∀ b : Fin 5, b.val = (s.ops.rg a).toNat % 4 →
    ((s.berth s.cur b).status ≠ .bound → Acts (.tpre a) s s.ops) ∧
    ((s.berth s.cur b).status = .bound → ∃ t, exec (.tpre a) s = .next t ∧ t.me = s.ops.retired s.nextIp ∧
      (t.berth s.cur b).status = .preSaving ∧ (t.berth s.cur b).g = (s.berth s.cur b).g ∧
      (∀ m, ((t.berth s.cur b).hd m).active = false) ∧ (∀ c, c ≠ 4 → c ≠ b → t.berth s.cur c = s.berth s.cur c) ∧
      (∀ x, t.byte x = s.byte x) ∧ (∀ k x, t.padByte k x = s.padByte k x))

/-- R224 and R312: TLBI drops the translations of the tile's job, for one page or for all of them, at the tile or everywhere; R224 and R366: TPRE
stops a job berth that is bound, to be saved, and does nothing to another. -/
def Obligations.InvalidateAndPreempt : Prop :=
  Claims.translationInvalidateClaim ∧ Claims.preemptClaim

namespace Sys2Proof.Claims
open Sys2Proof.Machine

/-! ### Memory (R24, R28, R57, R126 to R148, R284, R304) -/

/-- The value of an offset: the 6 bits with their sign, or the 32 bits that an extension makes of them, times the width (R24, R28). -/
def offset (e : Option (BitVec 26)) (o : Ofs) (n : Nat) : Word :=
  (match e with | some v => (v ++ o).signExtend 64 | none => o.signExtend 64) * BitVec.ofNat 64 n

/-- A result that an access yields: its register, which bytes of what is read, their sign, and the landing distance. -/
structure Part where
  dest : Dest
  base : Nat := 0
  n : Nat
  signed : Bool := false
  l : Nat

/-- The value that lands of a part of a number (R8, R135, R143). -/
def Part.value (r : Part) (x : Nat) : BitVec 512 :=
  let v := x / 2 ^ (8 * r.base) % 2 ^ (8 * r.n)
  if r.signed then (BitVec.ofNat (8 * r.n) v).signExtend 512 else BitVec.ofNat 512 v

/-- A load: its address, its width, whether it must be aligned, whether it reads the swizzled view, and what lands. -/
structure LoadForm where
  ea : Word
  n : Nat
  aligned : Bool := false
  swz : Bool := false
  parts : List Part

/-- The loads (R57, R135, R136). -/
def loadForm (y : Berth) (e : Option (BitVec 26)) : Instr → Option LoadForm
  | .ld wd l d a o => some (plain (y.rg a + offset e o wd.bytes) wd l d)
  | .ldIndexed wd l d a b => some (plain (y.rg a + y.rg b) wd l d)
  | .lds wd l d a o => some (signed (y.rg a + offset e o wd.bytes) wd l d)
  | .ldsIndexed wd l d a b => some (signed (y.rg a + y.rg b) wd l d)
  | .ldv l d a o => some { ea := y.rg a + offset e o 64, n := 64, parts := [{ dest := .v d, n := 64, l := l.toNat }] }
  | .ldx l d a o =>
    some { ea := y.rg a + offset e o 64, n := 64, aligned := true, swz := true, parts := [{ dest := .v d, n := 64, l := l.toNat }] }
  | _ => none
where
  plain (ea : Word) (wd : LdW) (l : Land) (d : GReg) : LoadForm :=
    { ea, n := wd.bytes, parts := match wd with
      | .q => [{ dest := .g d, n := 8, l := l.toNat }, { dest := .g (d + 1), base := 8, n := 8, l := l.toNat }]
      | _ => [{ dest := .g d, n := wd.bytes, l := l.toNat }] }
  signed (ea : Word) (wd : LdsW) (l : Land) (d : GReg) : LoadForm :=
    { ea, n := wd.bytes, parts := [{ dest := .g d, n := wd.bytes, signed := true, l := l.toNat }] }

/-- The berth with the parts of a number landing. -/
def landing (y : Berth) (rs : List Part) (x : Nat) : Berth := rs.foldl (fun y r => y.gets r.dest (r.value x) r.l 0) y

/-- The berth with the parts of what an outstanding access yields on their way (R39). -/
def awaiting (y : Berth) (rs : List Part) (id : Nat) : Berth :=
  { y with landing := y.landing ++ rs.map fun r =>
      { dest := r.dest, pos := y.pos + r.l, data := 0, flags := 0, wait := .memory id r.base r.n r.signed, buffered := decide (2 ≤ r.l) } }

/-- The place of byte `k` of an access at window offset `off`: its linear offset, or that which the swizzled view gives (R127). -/
def placeOf (swz : Bool) (off k : Nat) : Nat :=
  let x := off + k
  if swz then x - x / 64 % 32 * 64 + ((x / 64 % 32) ^^^ (x / 2048 % 32)) * 64 else x

/-- The number that bytes make, the first one lowest (R8). -/
def numberOf (f : Nat → Byte) : Nat → Nat
  | 0 => 0
  | n + 1 => numberOf f n + (f n).toNat * 2 ^ (8 * n)

/-- A run of the tile's own scratchpad below the frame area, at window offset `off`, that no view mark makes a hazard (R127, R137). -/
structure OwnRun (s : State) (ea : Word) (n off : Nat) (aligned : Bool) : Prop where
  address : ea.toNat = wbase + off
  inside : off + n ≤ frameBase
  aligned : aligned = true → off % n = 0
  unmarked : (s.tile s.cur).marks = []

/-- A store: its address, its width, whether it must be aligned, whether it writes the swizzled view, and the number whose bytes it
stores (R57, R135, R136). -/
def storeForm (y : Berth) (e : Option (BitVec 26)) : Instr → Option (Word × Nat × Bool × Bool × Nat)
  | .st wd d a o => some (y.rg a + offset e o wd.bytes, wd.bytes, false, false, value wd d)
  | .stIndexed wd d a b => some (y.rg a + y.rg b, wd.bytes, false, false, value wd d)
  | .stv d a o => some (y.rg a + offset e o 64, 64, false, false, (y.rv d).toNat)
  | .stx d a o => some (y.rg a + offset e o 64, 64, true, true, (y.rv d).toNat)
  | _ => none
where
  value (wd : LdW) (d : GReg) : Nat :=
    match wd with
    | .q => (y.rg d).toNat + (y.rg (d + 1)).toNat * 2 ^ 64
    | _ => (y.rg d).toNat

/-- No watchpoint of the tile's job covers the run (R363). -/
def Unwatched (s : State) (off n : Nat) : Prop := ∀ k < n, (s.jobOf s.cur).watchHit false (off + k) 1 = none

/-- What a read-modify-write of `8 n` bits leaves (R61, R143). -/
def combine (op : AmoOp) (n old b c : Nat) : Nat :=
  let sg (x : Nat) : Int := (BitVec.ofNat (8 * n) x).toInt
  match op with
  | .add => (old + b) % 2 ^ (8 * n)
  | .min => if sg b < sg old then b else old
  | .max => if sg old < sg b then b else old
  | .and => old &&& b
  | .or => old ||| b
  | .xor => old ^^^ b
  | .swp => b
  | .cas => if old = c then b else old

/-- A read-modify-write without ordering: its operation, address, width, operand and expected value, and what lands of the old value
(R143, R144). -/
structure AtomicForm where
  op : AmoOp
  ea : Word
  n : Nat
  b : Word
  c : Word
  parts : List Part

/-- AMO and RED. -/
def atomicForm (y : Berth) : Instr → Option AtomicForm
  | .amo op wd l d a b =>
    some { op, ea := y.rg a, n := wd.bytes, b := y.rg b, c := y.rg d, parts := [{ dest := .g d, n := wd.bytes, signed := true, l := l.toNat }] }
  | .red op wd a b => some { op := op.amo, ea := y.rg a, n := wd.bytes, b := y.rg b, c := 0, parts := [] }
  | _ => none

/-- The instruction has entered outstanding operations and taken an identity, has left the issuing berth as `y`, and has changed nothing
else: not a byte of memory or of a scratchpad, no other berth, no packet (R39, R284). -/
structure Outstanding (i : Instr) (s : State) (os : List MemOp) (y : Berth) (t : State) : Prop where
  runs : exec i s = .next t
  me : t.me = y.retired s.nextIp
  ops : (t.tile s.cur).ops = (s.tile s.cur).ops ++ os
  uid : t.uid = s.uid + 1
  rest : { t with tiles := s.tiles, fields := s.fields, uid := s.uid } = s.plain
  tile : { t.tile s.cur with berths := (s.tile s.cur).berths, bubbles := (s.tile s.cur).bubbles, ops := (s.tile s.cur).ops } =
    (s.tile s.cur).thaw
  tiles : ∀ k, k ≠ s.cur → t.tile k = s.tile k
  fields : ∀ f, { t.field f with activity := (s.field f).activity } = s.field f
  reads : Reads s t

/-- An operation of the issuing berth, under the identity that it takes. -/
def opOf (s : State) (what : MemWhat) : MemOp := { id := s.uid, b := s.curB, bind := s.me.bind, what }

/-- The pieces of an access of a berth, as outstanding operations (R130, R284): the places of its bytes have passed the checks. -/
def piecesOf (o : MemOp) (ps : List Place) : List MemOp :=
  (pieces 0 ps).map fun x => { o with ea := x.2.1.ea, n := x.2.2, off := x.1, win := x.2.1.win, leaf := x.2.1.leaf, key := x.2.1.addr }

/-- The same of a store: each piece takes its own bytes of the number. -/
def storePieces (o : MemOp) (ps : List Place) (n x : Nat) : List MemOp :=
  (pieces 0 ps).map fun q => { o with
    ea := q.2.1.ea, n := q.2.2, off := q.1, win := q.2.1.win, leaf := q.2.1.leaf, key := q.2.1.addr
    what := .store (((leBytes n x).drop q.1).take q.2.2) }

/-- The bytes of an access to global memory that has passed every check of R131 and R349. -/
def GlobalRun (s : State) (ea : Word) (n : Nat) (k : Access) (ps : List Place) : Prop :=
  s.ctx.check s.issuing ea n k = .ok ps ∧ ps ≠ [] ∧ eaWindow ea = false

/-- What AMO, AMOS and RED need of their address. -/
def atomicNeeds : Access := { write := true, aligned := true, home := true }

/-- No watchpoint of any job covers a physical address. -/
def NoWatch (s : State) : Prop := ∀ kj ∈ s.jobs, ∀ a n, kj.2.watchHit true a n = none

/-- An access with its own ordering: its address, what it needs, its operation and what lands (R139, R143). -/
structure OrderedForm where
  ea : Word
  n : Nat := 8
  needs : Access
  op : MemOp
  parts : List Part := []

/-- LD.d.acq and AMOS, TAGLD and TAGST apart. -/
def orderedForm (s : State) : Instr → Option OrderedForm
  | .ldDAcq sc l d a o =>
    some { ea := s.ops.rg a + offset s.imx o 8, needs := { write := false, aligned := true }, op := { opOf s .load with acq := some sc },
           parts := [{ dest := .g d, n := 8, l := l.toNat }] }
  | .amos op sc w d a b =>
    some { ea := s.ops.rg a, needs := atomicNeeds,
           op := { opOf s (.rmw op (s.ops.rg b) (s.ops.rg d)) with
             rel := (match w with | .acq => none | _ => some sc), acq := (match w with | .rel => none | _ => some sc) },
           parts := [{ dest := .g d, n := 8, l := 15 }] }
  | _ => none

end Sys2Proof.Claims

/-- R8, R57, R126, R127, R135 and R136: a load of the tile's own scratchpad lands its bytes, the lowest address lowest, zero- or
sign-extended, a q load in two registers, LDX through the swizzled view; it changes nothing else. R39, R130 and R284: a load of global
memory makes its pieces outstanding, and its results are on their way. -/
def Sys2Proof.Claims.windowLoadsClaim : Prop :=
  ∀ i s f, loadForm s.ops s.imx i = some f → Issues i s →
    (∀ off, OwnRun s f.ea f.n off f.aligned →
      Acts i s (landing s.ops f.parts (numberOf (fun k => s.padByte s.cur (placeOf f.swz off k)) f.n))) ∧
    (∀ ps, f.swz = false → GlobalRun s f.ea f.n { write := false } ps →
      ∃ t, Outstanding i s (piecesOf (opOf s .load) ps) (awaiting s.ops f.parts s.uid) t)

/-- R8, R57, R126, R127, R135 and R136: a store to the tile's own scratchpad stores its bytes there, the lowest at the lowest address, and
changes no other byte and no register. R39, R130 and R284: a store to global memory makes its pieces outstanding, each with its bytes. -/
def Sys2Proof.Claims.windowStoresClaim : Prop :=
  ∀ i s ea n al swz x, storeForm s.ops s.imx i = some (ea, n, al, swz, x) → Issues i s →
    (∀ off, OwnRun s ea n off al → Unwatched s off n →
      ∃ t, exec i s = .next t ∧ t.me = s.ops.retired s.nextIp ∧ StoresPad s t (placeOf swz off) n x) ∧
    (∀ ps, swz = false → GlobalRun s ea n { write := true } ps →
      ∃ t, Outstanding i s (storePieces (opOf s (.store [])) ps n x) s.ops t)

/-- R8, R57, R126, R127, R135 and R136: a load of the tile's own scratchpad lands its bytes, the lowest address lowest, zero- or sign-extended, a q
load in two registers, LDX through the swizzled view; it changes nothing else. R39, R130 and R284: a load of global memory makes its pieces
outstanding, and its results are on their way; R8, R57, R126, R127, R135 and R136: a store to the tile's own scratchpad stores its bytes there, the
lowest at the lowest address, and changes no other byte and no register. R39, R130 and R284: a store to global memory makes its pieces outstanding,
each with its bytes. -/
def Obligations.LoadsAndStores : Prop :=
  Claims.windowLoadsClaim ∧ Claims.windowStoresClaim

/-- R61, R143 and R144: AMO and RED of the tile's own scratchpad store the combined value; AMO lands the old value, sign-extended. Those of
global memory are outstanding until their home has performed them (R308). -/
def Obligations.Atomics : Prop :=
  ∀ i s f, atomicForm s.ops i = some f → Issues i s →
    (∀ off, OwnRun s f.ea f.n off true → Unwatched s off f.n → let old := numberOf (fun k => s.padByte s.cur (off + k)) f.n
      ∃ t, exec i s = .next t ∧
        StoresPad s t (off + ·) f.n (combine f.op f.n old (f.b.toNat % 2 ^ (8 * f.n)) (f.c.toNat % 2 ^ (8 * f.n))) ∧
        t.me = (landing s.ops f.parts old).retired s.nextIp) ∧
    (∀ ps, GlobalRun s f.ea f.n atomicNeeds ps →
      ∃ t, Outstanding i s (piecesOf (opOf s (.rmw f.op f.b f.c)) ps) (awaiting s.ops f.parts s.uid) t)

/-- R139 and R143: LD.d.acq, ST.d.rel and AMOS, in the scratchpad and in global memory, make an access outstanding that carries their
ordering; the value of a load and the old value of AMOS are on their way, AMOS's at distance 15. -/
def Sys2Proof.Claims.orderedAccessesClaim : Prop :=
  (∀ i s f ps, orderedForm s i = some f → Issues i s → s.ctx.check s.issuing f.ea f.n f.needs = .ok ps →
    ∃ t, Outstanding i s (piecesOf f.op ps) (awaiting s.ops f.parts s.uid) t) ∧
  (∀ sc d a o s ps, Issues (.stDRel sc d a o) s →
    s.ctx.check s.issuing (s.ops.rg a + offset s.imx o 8) 8 { write := true, aligned := true } = .ok ps →
    ∃ t, Outstanding (.stDRel sc d a o) s (storePieces { opOf s (.store []) with rel := some sc } ps 8 (s.ops.rg d).toNat) s.ops t)

/-- R138, R140, R141 and R142: a FENCE is outstanding with its release and acquire; VJOIN joins the berth's own scratchpad writes; PREF
changes no register and no byte, whether or not its page is mapped; FLUSH and INVAL are outstanding for each run of bytes that they act on,
at the scopes that a cache past the scratchpad serves. -/
def Sys2Proof.Claims.orderingClaim : Prop :=
  (∀ sc s, Issues (.fence sc) s → ∃ t, Outstanding (.fence sc) s [{ opOf s .fence with rel := some sc, acq := some sc }] s.ops t) ∧
  (∀ s, Issues .vjoin s → ∃ t, exec .vjoin s = .next t ∧ Reads s t ∧ t.me = s.ops.retired s.nextIp ∧
    ∀ m ∈ (t.tile s.cur).marks, m.src = .berth s.curB → m.joined.getLsbD s.curB.val = true) ∧
  (∀ a s, Issues (.pref a) s → (∃ t, exec (.pref a) s = .next t ∧ Reads s t ∧ t.me = s.ops.retired s.nextIp) ∧
    ∀ ps, GlobalRun s (s.ops.rg a) 1 { write := false } ps → (∀ p ∈ ps, bypasses p.leaf = false) →
      ∃ t, Outstanding (.pref a) s (piecesOf (opOf s .pref) ps) s.ops t) ∧
  (∀ sc drop a b s i, i = (if drop then .inval sc a b else .flush sc a b) → Issues i s →
    let rs := s.issuing.cleanRuns s.cur (s.ops.rg a) (min (s.ops.rg b).toNat 65536)
    (sc = .berth ∨ sc = .tile → Acts i s s.ops) ∧
    (sc ≠ .berth → sc ≠ .tile → ∃ t, Outstanding i s (rs.map fun r =>
      { opOf s (.clean sc drop) with leaf := r.1, key := r.2.1, n := r.2.2.1, off := r.2.2.2 }) s.ops t))

/-- R139 and R143: LD.d.acq, ST.d.rel and AMOS, in the scratchpad and in global memory, make an access outstanding that carries their ordering; the
value of a load and the old value of AMOS are on their way, AMOS's at distance 15; R138, R140, R141 and R142: a FENCE is outstanding with its
release and acquire; VJOIN joins the berth's own scratchpad writes; PREF changes no register and no byte, whether or not its page is mapped; FLUSH
and INVAL are outstanding for each run of bytes that they act on, at the scopes that a cache past the scratchpad serves. -/
def Obligations.OrderedAccesses : Prop :=
  Claims.orderedAccessesClaim ∧ Claims.orderingClaim

/-- R145 and R148: TAGLD, TAGST and MCST make an access of their granule's or their bytes' home outstanding; the lock is on its way to
the register of TAGLD. -/
def Obligations.TagsAndMulticast : Prop :=
  (∀ l d a o s p, Issues (.tagld l d a o) s → s.ctx.tagPlace s.issuing (s.ops.rg a + offset s.imx o 32) false = .ok p →
    ∃ t, Outstanding (.tagld l d a o) s (piecesOf (opOf s .tagld) [p]) (awaiting s.ops [{ dest := .g d, n := 8, l := l.toNat }] s.uid) t) ∧
  (∀ d a o s p, Issues (.tagst d a o) s → s.ctx.tagPlace s.issuing (s.ops.rg a + offset s.imx o 32) true = .ok p →
    ∃ t, Outstanding (.tagst d a o) s (piecesOf (opOf s (.tagst ((s.ops.rg d).setWidth 4))) [p]) s.ops t) ∧
  (∀ d a o s ps, Issues (.mcst d a o) s →
    GlobalRun s (s.ops.rg a + offset s.imx o 8) 8 { write := true, aligned := true, home := true, all := true } ps →
    ∃ t, Outstanding (.mcst d a o) s (piecesOf (opOf s (.mcst (leBytes 8 (s.ops.rg d).toNat))) ps) s.ops t)

/-- R45, R300 and R304: bytes of physical memory that a device unit has written read back, and no other byte has changed, while no two
addresses share a place; memory is kept in one canonical form. -/
def Obligations.MemoryReadsBack : Prop :=
  ∀ (s : State) pa bs, populatedRun pa bs.length = true → Apart s → let t := s.pwrite pa bs
    (∀ k, k < bs.length → t.byte (pa + k) = bs.getD k 0) ∧ (∀ a, (a < pa ∨ pa + bs.length ≤ a) → t.byte a = s.byte a) ∧
      t.stuck = s.stuck ∧ (Memory.wf s.mem = true → Memory.wf t.mem = true)

namespace Sys2Proof.Claims
open Sys2Proof.Machine

/-! ### Vectors (R150 to R166) -/

/-- The lanes that VLT selects (R150). -/
def lanesOf (y : Berth) : Lanes :=
  { w := typeBytes (y.vlt.toNat % 8), fl := typeFloat (y.vlt.toNat % 8), uns := y.vlt.getLsbD 3, sat := y.vlt.getLsbD 4, ftz := y.ftz }

/-- A vector result made lane by lane: the mask, the register, the bytes of a lane, the number of lanes, the landing, and each active
lane's value with its flags. -/
structure LaneForm where
  mask : PReg
  dest : VReg
  w : Nat
  n : Nat
  lat : Nat
  value : Nat → Nat × FFlags

/-- The elementwise instructions (R154 to R156, R161 to R163, R166). -/
def laneForm (y : Berth) (i : Instr) : Option LaneForm :=
  let k := lanesOf y
  let form (p : PReg) (d : VReg) (lat : Nat) (f : Nat → Nat × FFlags) : Option LaneForm :=
    some { mask := p, dest := d, w := k.w, n := 64 / k.w, lat, value := f }
  let ln (r : VReg) (j : Nat) : Nat := laneOf (y.rv r) k.w j
  let floating (p : PReg) (d a : VReg) (lat : Nat) (f : FloatFmt → Bool → Nat → Nat × FFlags) : Option LaneForm :=
    match k.fl with
    | some g => form p d lat fun j => f g k.ftz (ln a j)
    | none => none
  match i with
  | .vadd p d a b => form p d 4 fun j => laneAdd k (ln a j) (ln b j)
  | .vsub p d a b => form p d 4 fun j => laneSub k (ln a j) (ln b j)
  | .vmul p d a b => form p d 4 fun j => laneMul k (ln a j) (ln b j)
  | .vfma p d a b => form p d 5 fun j => laneFma k (ln a j) (ln b j) (ln d j)
  | .vmin p d a b => form p d 4 fun j => laneMinMax k false (ln a j) (ln b j)
  | .vmax p d a b => form p d 4 fun j => laneMinMax k true (ln a j) (ln b j)
  | .vabs p d a => form p d 4 fun j => laneAbs k (ln a j)
  | .vneg p d a => form p d 4 fun j => laneNeg k (ln a j)
  | .vdiv p d a b => form p d (if k.fl.isSome then 14 else 20) fun j => laneDiv k (ln a j) (ln b j)
  | .vsqrt p d a => floating p d a 14 fsqrtOp
  | .vrcp p d a => floating p d a 8 frcpOp
  | .vrsq p d a => floating p d a 8 frsqOp
  | .vexp p d a => floating p d a 8 fexpOp
  | .vlog p d a => floating p d a 8 flogOp
  | .vand p d a b => form p d 4 fun j => (ln a j &&& ln b j, 0)
  | .vor p d a b => form p d 4 fun j => (ln a j ||| ln b j, 0)
  | .vxor p d a b => form p d 4 fun j => (ln a j ^^^ ln b j, 0)
  | .vshl p d a b => form p d 4 fun j => (if 8 * k.w ≤ ln b j then 0 else ln a j * 2 ^ ln b j % 2 ^ (8 * k.w), 0)
  | .vshr p d a b => form p d 4 fun j => (if 8 * k.w ≤ ln b j then 0 else ln a j / 2 ^ ln b j, 0)
  | .vsra p d a b => form p d 4 fun j => (((BitVec.ofNat (8 * k.w) (ln a j)).sshiftRight (ln b j)).toNat, 0)
  | .vpopc p d a => form p d 4 fun j => ((List.range (8 * k.w)).countP fun m => (ln a j).testBit m, 0)
  | .viota p d => form p d 4 fun j =>
    let below := (List.range j).countP fun m => active (y.rp p) k.w m
    (match k.fl with | some g => (roundNE g k.ftz false below 0 false).1 | none => below, 0)
  | .vperm p d a b => form p d 4 fun j => (if ln b j < 64 / k.w then ln a (ln b j) else 0, 0)
  | .vbcast p d b => form p d 4 fun _ => ((y.rg b).toNat % 2 ^ (8 * k.w), 0)
  | .vshuf p d a b =>
    some { mask := p, dest := d, w := 1, n := 64, lat := 4, value := fun j =>
      let m := laneOf (y.rv b) 1 j
      (if m < 64 then laneOf (y.rv a) 1 m else 0, 0) }
  | .vpln p d a b => if 2 ≤ (y.rg b).toNat % 16 ∧ (y.rg b).toNat % 16 ≤ 8 then
      some { mask := p, dest := d, w := 8, n := 8, lat := 4, value := fun j => (planeWord (y.rv a) ((y.rg b).toNat % 16) j, 0) } else none
  | .vplj p d a b => if 2 ≤ (y.rg b).toNat % 16 ∧ (y.rg b).toNat % 16 ≤ 8 then
      some { mask := p, dest := d, w := 1, n := 64, lat := 4, value := fun e =>
        let bit (m : Nat) : Bool := (laneOf (y.rv a) 8 m).testBit e
        let m := planeMag bit ((y.rg b).toNat % 16) ((y.rg b).getLsbD 4)
        (if bit 0 = true ∧ m ≠ 0 then (BitVec.ofInt 8 (-(m : Int))).toNat else m, 0) } else none
  | .vcvt p d a =>
    let ct := y.vlt.toNat / 32 % 8
    let part := y.vlt.toNat / 512 % 8
    let ls := 64 / k.w
    let ld := 64 / typeBytes ct
    if part < max ls ld / min ls ld then
      some { mask := p, dest := d, w := typeBytes ct, n := ld, lat := 4, value := fun j =>
        if ld ≤ ls then laneCvt k ct (y.vlt.getLsbD 8) (ln a (part * ld + j))
        else if part * ls ≤ j ∧ j < part * ls + ls then laneCvt k ct (y.vlt.getLsbD 8) (ln a (j - part * ls))
        else (laneOf (y.rv d) (typeBytes ct) j, 0) }
    else none
  | _ => none

/-- What the active lanes of a result raise (R87, R153). -/
def laneFlags (f : LaneForm) (m : Word) : FFlags :=
  (List.range f.n).foldl (fun a j => if active m f.w j then a ||| (f.value j).2 else a) 0

/-- The forms of a vector instruction that R151, R164 and R166 make illegal, with the trap's detail. -/
def laneIllegal (y : Berth) : Instr → Option Word
  | .vsqrt _ _ _ | .vrcp _ _ _ | .vrsq _ _ _ | .vexp _ _ _ | .vlog _ _ _ =>
    if (lanesOf y).fl = none then some (y.vlt.setWidth 64) else none
  | .vcvt _ _ _ =>
    let ls := 64 / (lanesOf y).w
    let ld := 64 / typeBytes (y.vlt.toNat / 32 % 8)
    if max ls ld / min ls ld ≤ y.vlt.toNat / 512 % 8 then some (y.vlt.setWidth 64) else none
  | .vpln _ _ _ b | .vplj _ _ _ b => if 2 ≤ (y.rg b).toNat % 16 ∧ (y.rg b).toNat % 16 ≤ 8 then none else some (y.rg b)
  | _ => none

/-- The comparison of an instruction: its mask, destination and operands, and whether it is equality, inequality, less, or not above. -/
def compareForm : Instr → Option (PReg × PReg × VReg × VReg × VCond)
  | .vcmpEq p d a b => some (p, d, a, b, .eq)
  | .vcmpNe p d a b => some (p, d, a, b, .ne)
  | .vcmpLt p d a b => some (p, d, a, b, .lt)
  | .vcmpLe p d a b => some (p, d, a, b, .le)
  | _ => none

/-- The values of a balanced tree's levels: neighbours combined, an empty place passing the other (R159). -/
def treeValue (f : Nat → Nat → Nat) : Nat → (Nat → Option Nat) → Nat → Option Nat
  | 0, x, j => x j
  | n + 1, x, j =>
    match treeValue f n x (2 * j), treeValue f n x (2 * j + 1) with
    | some a, some b => some (f a b)
    | some a, none => some a
    | none, r => r

/-- The reduction of an instruction: mask, destination, operands, and its operation (R159). -/
def reduceForm (k : Lanes) : Instr → Option (PReg × VReg × VReg × VReg × (Nat → Nat → Nat × FFlags))
  | .vreds p d a b => some (p, d, a, b, laneAdd k)
  | .vredmMax p d a b => some (p, d, a, b, laneMinMax k true)
  | .vredmMin p d a b => some (p, d, a, b, laneMinMax k false)
  | _ => none

/-- The running sum at a lane: of the active lanes up to it, from lane 0 up (R160). -/
def runningSum (k : Lanes) (m : Word) (x : BitVec 512) : Nat → Option Nat
  | 0 => if active m k.w 0 then some (laneOf x k.w 0) else none
  | j + 1 =>
    if active m k.w (j + 1) then
      some (match runningSum k m x j with | some y => (laneAdd k y (laneOf x k.w (j + 1))).1 | none => laneOf x k.w (j + 1))
    else runningSum k m x j

end Sys2Proof.Claims

/-- R150 to R156, R161 to R164 and R166: an elementwise vector instruction lands a register whose active lanes hold its results and whose
inactive lanes keep their old values, with the flags of the active lanes. -/
def Obligations.VectorLanes : Prop :=
  ∀ i s f, laneForm s.ops i = some f → Issues i s →
    ∃ x, Lands i s (.v f.dest) x f.lat (laneFlags f (s.ops.rp f.mask)) ∧
      ∀ j < f.n, laneOf x f.w j =
        if active (s.ops.rp f.mask) f.w j then (f.value j).1 % 2 ^ (8 * f.w) else laneOf (s.ops.rv f.dest) f.w j

/-- R151, R164 and R166: a function of floating lanes on integer lanes, a conversion of a part that does not exist, and a plane count
outside 2 to 8 are illegal. -/
def Obligations.VectorTraps : Prop :=
  ∀ i s det, laneIllegal s.ops i = some det → s.curB ≠ 4 → Issues i s → Traps i s (mkTrap 0x02 s.ctx.slot s.me.ip det s.me.ip)

/-- R157 and R158: VCMP writes every bit of pD that stands for a byte of an active lane and keeps the others; VSEL takes each lane of vA
where it is active and of vB elsewhere. -/
def Sys2Proof.Claims.vectorCompareClaim : Prop :=
  (∀ i s p d a b c, compareForm i = some (p, d, a, b, c) → Issues i s → let k := lanesOf s.ops
    let r (j : Nat) : Bool × FFlags := laneCmp k c (laneOf (s.ops.rv a) k.w j) (laneOf (s.ops.rv b) k.w j)
    ∃ (x : BitVec 512) (fl : FFlags), Lands i s (.p d) x 4 fl ∧
      (∀ j < 64, x.getLsbD j = if active (s.ops.rp p) k.w (j / k.w) then (r (j / k.w)).1 else (s.ops.rp d).getLsbD j) ∧
      ∀ m : Nat, fl.getLsbD m = (List.range (64 / k.w)).any fun j => active (s.ops.rp p) k.w j && (r j).2.getLsbD m) ∧
  (∀ s p d a b, Issues (.vsel p d a b) s → let k := lanesOf s.ops
    ∃ x, Lands (.vsel p d a b) s (.v d) x 4 0 ∧
      ∀ j < 64 / k.w, laneOf x k.w j = laneOf (if active (s.ops.rp p) k.w j then s.ops.rv a else s.ops.rv b) k.w j)

/-- R159 and R160: VREDS and VREDM combine lane 0 of vB with the balanced tree of vA's active lanes and clear the other lanes; VSCAN writes
the running sums of the active lanes. -/
def Sys2Proof.Claims.vectorReduceClaim : Prop :=
  (∀ i s p d a b f, reduceForm (lanesOf s.ops) i = some (p, d, a, b, f) → Issues i s → let k := lanesOf s.ops
    let tree := treeValue (fun x y => (f x y).1) 6
      (fun j => if j < 64 / k.w ∧ active (s.ops.rp p) k.w j = true then some (laneOf (s.ops.rv a) k.w j) else none) 0
    ∃ x fl, Lands i s (.v d) x 6 fl ∧ (∀ j, 1 ≤ j → j < 64 / k.w → laneOf x k.w j = 0) ∧
      ∀ v, tree = some v → laneOf x k.w 0 = (f (laneOf (s.ops.rv b) k.w 0) v).1 % 2 ^ (8 * k.w)) ∧
  (∀ s p d a, Issues (.vscan p d a) s → let k := lanesOf s.ops
    ∃ x fl, Lands (.vscan p d a) s (.v d) x 6 fl ∧ ∀ j < 64 / k.w, laneOf x k.w j =
      if active (s.ops.rp p) k.w j then (match runningSum k (s.ops.rp p) (s.ops.rv a) j with | some v => v | none => 0) % 2 ^ (8 * k.w)
      else laneOf (s.ops.rv d) k.w j)

/-- R163: VMOVS.g lands lane gB of vA, signed lanes with their sign and a lane beyond the register as 0; VMOVS.v replaces lane gA of vD. -/
def Sys2Proof.Claims.vectorMovesClaim : Prop :=
  (∀ s d a b, Issues (.vmovsG d a b) s → let k := lanesOf s.ops
    let j := (s.ops.rg b).toNat
    LandsG (.vmovsG d a b) s d (if 64 / k.w ≤ j then 0
      else if k.fl.isNone = true ∧ k.uns = false then (BitVec.ofNat (8 * k.w) (laneOf (s.ops.rv a) k.w j)).signExtend 64
      else BitVec.ofNat 64 (laneOf (s.ops.rv a) k.w j)) 4 0) ∧
  (∀ s d a b, Issues (.vmovsV d a b) s → let k := lanesOf s.ops
    ∃ x, Lands (.vmovsV d a b) s (.v d) x 4 0 ∧ ∀ j < 64 / k.w, laneOf x k.w j =
      if j = (s.ops.rg a).toNat then (s.ops.rg b).toNat % 2 ^ (8 * k.w) else laneOf (s.ops.rv d) k.w j)

/-- R157 and R158: VCMP writes every bit of pD that stands for a byte of an active lane and keeps the others; VSEL takes each lane of vA where it is
active and of vB elsewhere; R159 and R160: VREDS and VREDM combine lane 0 of vB with the balanced tree of vA's active lanes and clear the other
lanes; VSCAN writes the running sums of the active lanes; R163: VMOVS.g lands lane gB of vA, signed lanes with their sign and a lane beyond the
register as 0; VMOVS.v replaces lane gA of vD. -/
def Obligations.VectorCompareReduceMove : Prop :=
  Claims.vectorCompareClaim ∧ Claims.vectorReduceClaim ∧ Claims.vectorMovesClaim

namespace Sys2Proof.Claims
open Sys2Proof.Machine

/-! ### Macros (R99, R168 to R192) -/

/-- The number that `n` bytes of the tile's own scratchpad make. -/
def ownNumber (s : State) (off n : Nat) : Nat := numberOf (fun k => s.padByte s.cur (off + k)) n

/-- The descriptor at a window offset. -/
def ownDesc (s : State) (off : Nat) : BitVec 512 := BitVec.ofNat 512 (ownNumber s off 64)

/-- Whether a descriptor passes the third, fourth and fifth check of R176. -/
def passesDesc (k : DescCheck) : Prop :=
  (∀ b ∈ k.words, b = true) ∧ (∀ r ∈ k.ranges, r.2 ≤ padSize) ∧ ∀ a ∈ k.aligns, a.1 % a.2 = 0

/-- A macro with a descriptor: its handle, the descriptor's address, its op code, its variant, the format entry copied (R99), what else
it copies, the check of its descriptor, and whether its weights must be sparse or dense where it names a TLW descriptor (R180). -/
structure MacroForm where
  m : MReg
  ea : Word
  op : Nat
  variant : BitVec 3
  fmt : Word := 0
  aux : BitVec 512 → BitVec 256 := fun _ => 0
  check : BitVec 512 → DescCheck
  weights : Option Bool := none

/-- The macros that take a descriptor (R169, R179 to R187, R210). -/
def macroForm (y : Berth) : Instr → Option MacroForm
  | .tlw v m a => some { m, ea := y.rg a, op := 0, variant := v.code, fmt := entry v.code, check := checkTlw v.code (fmt v.code) }
  | .tmm v m a => some { m, ea := y.rg a, op := 1, variant := v.code, fmt := entry v.code, check := checkTmm false v.code (fmt v.code),
                         weights := some false }
  | .tmmg v m a => some { m, ea := y.rg a, op := 2, variant := v.code, fmt := entry v.code, check := checkTmmg (fmt v.code),
                          aux := fun d => (y.shape.getD (wbits (descWord d 0) 37 36) 0).setWidth 256 }
  | .trank v m a => some { m, ea := y.rg a, op := 3, variant := v.code, check := checkTrank (Fmt.ofVariant v.code 0) }
  | .tspz v m a => some { m, ea := y.rg a, op := 4, variant := v.code, fmt := entry v.code, check := checkTmm true v.code (fmt v.code),
                          weights := some true }
  | .tdr v m a =>
    if (fmt v.code).plane then none
    else some { m, ea := y.rg a, op := 5, variant := v.code, fmt := entry v.code, check := checkTdr (fmt v.code) }
  | .gath e m a => some { m, ea := y.rg a, op := 8, variant := e.code, check := checkGather }
  | .scat e m a => some { m, ea := y.rg a, op := 9, variant := e.code, check := checkGather }
  | .copy e m a => some { m, ea := y.rg a, op := 10, variant := e.code, check := checkCopy false }
  | .copy2 e m a => some { m, ea := y.rg a, op := 11, variant := e.code, check := checkCopy2 }
  | .setm e m a b => some { m, ea := y.rg a, op := 12, variant := e.code, check := checkCopy true,
                            aux := fun _ => 0#128 ++ (y.rg b ++ 0#64) }
  | .steer d a b => steered d a b 28 checkSteer
  | .merge d a b => steered d a b 29 checkMerge
  | _ => none
where
  lc0 : Word := match y.loops.reverse[0]? with | some l => l.lc | none => 0
  entry (v : BitVec 3) : Word := if v = 3 then y.fmt.getD (lc0.toNat % 16) 0 else if v = 4 then y.fmt.getD 0 0 else 0
  fmt (v : BitVec 3) : Fmt := Fmt.ofVariant v (entry v)
  steered (d a b : GReg) (op : Nat) (k : BitVec 512 → DescCheck) : Option MacroForm :=
    if (y.rg d).toNat < 2 ^ 20 ∧ (y.rg b).toNat < 2 ^ 35 then
      some { m := (y.rg b).extractLsb' 32 3, ea := y.rg a, op, variant := 0, check := k, aux := fun _ => 0#128 ++ (y.rg b ++ y.rg d) }
    else none

/-- Whether the TLW descriptor that a TMM or TSPZ names passes its checks and agrees with it (R180). -/
def weightsOk (s : State) (f : MacroForm) (d : BitVec 512) : Prop :=
  ∀ sparse, f.weights = some sparse →
    let wd := wbits (descWord d 3) 18 0
    let d2 := ownDesc s wd
    wd % 64 = 0 ∧ wd + 64 ≤ frameBase ∧ passesDesc (checkTlw f.variant (Fmt.ofVariant f.variant f.fmt) d2) ∧
      (sparse = true ↔ wbits (descWord d2 2) 12 10 ≠ 0) ∧ wbits (descWord d2 2) 9 0 = wbits (descWord d 2) 15 6

/-- The handle as a macro with descriptor `d` at `off` takes it, before its state (R169, R170). -/
def macroHandle (s : State) (f : MacroForm) (off : Nat) (d : BitVec 512) : Handle :=
  { op := BitVec.ofNat 5 f.op, eng := BitVec.ofNat 3 (engineOf (BitVec.ofNat 5 f.op) d),
    total := BitVec.ofNat 32 (f.check d).total, prog := (descWord d 0).setWidth 32, desc := d, daddr := BitVec.ofNat 19 off,
    variant := f.variant, fmt := f.fmt, aux := f.aux d, uid := s.uid, entered := s.uid }

/-- The instruction puts handle `m` in a state and leaves all other registers, and every queue of the tile has gained what is said. -/
structure Handled (i : Instr) (s : State) (y : Berth) (m : MReg) (h : Handle) (gains : Nat → List QItem) (t : State) : Prop where
  runs : exec i s = .next t
  reads : Reads s t
  me : t.me = (y.setHd m h).retired s.nextIp
  queues : ∀ e < 7, (t.tile s.cur).queue e = (s.tile s.cur).queue e ++ gains e

/-- The status register of a handle, bit by bit (R169). -/
def statusWord (h : Handle) : Word :=
  h.xtag ++ 0#11 ++ h.op ++ h.eng ++ h.code ++ 0#6 ++ BitVec.ofNat 3 (h.st.code) ++ 0#11 ++ h.flags

end Sys2Proof.Claims

/-- R99, R168 to R170, R174, R176, R179 to R187 and R210 to R212: a macro whose descriptor passes its checks enters its engine's queue on
its handle, QUEUED with its TOTAL and with PROG at START; one with no element left is DONE at once. It changes no byte and no other
register. -/
def Obligations.MacroIssue : Prop :=
  ∀ i s f off, macroForm s.ops i = some f → Issues i s → OwnRun s f.ea 64 off true →
    let d := ownDesc s off
    passesDesc (f.check d) → weightsOk s f d → let h := macroHandle s f off d
    (h.prog = h.total → ∃ t : State, Handled i s s.ops f.m { h with st := .done } (fun _ => []) t) ∧
    (h.prog ≠ h.total → ∃ t : State, Handled i s s.ops f.m { h with st := .queued } (fun e => if e = h.eng.toNat then [.mac s.uid] else []) t)

/-- R181, R184 and R188: TZ enters the matrix queue with 32 elements; TSHAPE writes the four shape registers from 32 bytes and its handle
is DONE; QFENCE enters every queue that its mask names, and with mask 0 is DONE at once. -/
def Sys2Proof.Claims.macrosOfRegistersClaim : Prop :=
  (∀ m a s, Issues (.tz m a) s → ∃ t : State, Handled (.tz m a) s s.ops m
    { op := 6, total := 32, desc := ((s.ops.rg a).setWidth 2).setWidth 512 <<< 34, st := .queued, uid := s.uid, entered := s.uid }
    (fun e => if e = 0 then [.mac s.uid] else []) t) ∧
  (∀ m a s off, Issues (.tshape m a) s → OwnRun s (s.ops.rg a) 32 off true →
    let w (k : Nat) : Word := BitVec.ofNat 64 (ownNumber s (off + 8 * k) 8)
    (∀ k < 4, shapeWord (w k)) → ∃ t : State, Handled (.tshape m a) s { s.ops with shape := Vector.ofFn fun k => w k.val } m
      { op := 7, eng := 6, total := 1, prog := 1, daddr := BitVec.ofNat 19 off, st := .done, uid := s.uid, entered := s.uid }
      (fun _ => []) t) ∧
  (∀ sc m a s, Issues (.qfence sc m a) s → let k : BitVec 7 := (s.ops.rg a).setWidth 7
    let before : List Nat := (List.range 7).flatMap fun e => if k.getLsbD e then ((s.tile s.cur).queue e).filterMap (fun q =>
      match q with | .mac u => some u | _ => none) else []
    let h : Handle := { op := 13, eng := 6, total := 1, variant := sc.code, qmask := k, uid := s.uid, entered := s.uid, ahead := before }
    (k = 0 → ∃ t : State, Handled (.qfence sc m a) s s.ops m { h with st := .done, prog := 1 } (fun _ => []) t) ∧
    (k ≠ 0 → ∃ t : State, Handled (.qfence sc m a) s s.ops m { h with st := .queued }
      (fun e => if k.getLsbD e then [.fence s.uid] else []) t))

/-- R189 to R192: MWAIT passes once its handle is neither QUEUED nor RUNNING; MPRG and MSTAT land TOTAL with PROG and the status
register; MKILL leaves a macro that has not ended KILLED and out of its queues; MRES queues a suspended, faulted or stopped macro again at
its PROG when the descriptor is the same but for START. -/
def Sys2Proof.Claims.macroControlClaim : Prop :=
  (∀ m s, Issues (.mwait m) s → (s.ops.hd m).st ≠ .queued ∧ (s.ops.hd m).st ≠ .running ∧
    ∃ t : State, exec (.mwait m) s = .next t ∧ Reads s t ∧ t.me = s.ops.retired s.nextIp) ∧
  (∀ d m s, Issues (.mprg d m) s → LandsG (.mprg d m) s d ((s.ops.hd m).total ++ (s.ops.hd m).prog) 1 0) ∧
  (∀ d m s, Issues (.mstat d m) s → ∃ t : State, exec (.mstat d m) s = .next t ∧ Reads s t ∧
    t.me = (s.ops.gets (.g d) ((statusWord (s.ops.hd m)).setWidth 512) 1 0).retired s.nextIp) ∧
  (∀ m s, Issues (.mkill m) s → let h := s.ops.hd m
    if h.st = .idle ∨ h.st = .done ∨ h.st = .killed then Acts (.mkill m) s s.ops
    else ∃ t : State, exec (.mkill m) s = .next t ∧ Reads s t ∧ t.me = (s.ops.setHd m { h with st := .killed }).retired s.nextIp ∧
      ∀ e < 7, (t.tile s.cur).queue e = ((s.tile s.cur).queue e).filter fun q => q != .mac h.uid && q != .fence h.uid) ∧
  (∀ m a s off, Issues (.mres m a) s → OwnRun s (s.ops.rg a) 64 off true → let h := s.ops.hd m
    h.st = .suspended ∨ h.st = .faulted ∨ h.st = .stopped →
    (h.op ≠ 6 ∧ h.op ≠ 7 ∧ h.op ≠ 13 → (ownDesc s off).extractLsb' 32 480 = h.desc.extractLsb' 32 480) →
    ∃ t : State, Handled (.mres m a) s s.ops m { h with st := .queued, code := 0, xtag := 0, entered := s.uid }
      (fun e => if h.op = 13 then (if h.qmask.getLsbD e then [.fence h.uid] else [])
                else if e = h.eng.toNat then [.mac h.uid] else []) t)

/-- R181, R184 and R188: TZ enters the matrix queue with 32 elements; TSHAPE writes the four shape registers from 32 bytes and its handle is DONE;
QFENCE enters every queue that its mask names, and with mask 0 is DONE at once; R189 to R192: MWAIT passes once its handle is neither QUEUED nor
RUNNING; MPRG and MSTAT land TOTAL with PROG and the status register; MKILL leaves a macro that has not ended KILLED and out of its queues; MRES
queues a suspended, faulted or stopped macro again at its PROG when the descriptor is the same but for START. -/
def Obligations.MacroHandles : Prop :=
  Claims.macrosOfRegistersClaim ∧ Claims.macroControlClaim

namespace Sys2Proof.Claims
open Sys2Proof.Machine

/-! ### Publications, subscriptions and streams (R196 to R205) -/

/-- The tile with a message at the end of its egress queue, its source's bytes on the scoreboard (R197, R201). -/
def withMsg (x : Tile) (m : Msg) : Tile :=
  { x with qEgress := x.qEgress ++ [.msg m],
           score := x.score ++ [{ owner := m.uid, mac := false, ranges := [{ win := true, lo := m.src, hi := m.src + m.len }] }] }

/-- A packet as the current tile injects it (R251, R266, R273, R420). -/
def stamped (s : State) (p : Packet) : Packet :=
  { p with job := (s.tile s.cur).job, gen := (s.router (hostTile s.cur)).gen, orig := BitVec.ofNat 17 s.cur, omod := s.modid,
           oseq := (s.tile s.cur).oseq, place := .router (hostTile s.cur), inp := .l, want := [], routed := false,
           detour := false, path := [] }

/-- The instruction injects one packet, whose copy stays in the egress buffer until it is acknowledged (R251, R266). -/
structure Injects (i : Instr) (s : State) (p : Packet) (t : State) : Prop where
  runs : exec i s = .next t
  reads : Reads s t
  me : t.me = s.ops.retired s.nextIp
  packets : t.packets = s.packets ++ [stamped s p]
  egress : (t.tile s.cur).egress = (s.tile s.cur).egress ++
    [{ pkt := stamped s p, resends := 0, who := s.issuer s.cur s.curB, inc := (s.jobOf s.cur).inc }]
  count : (t.tile s.cur).oseq = (s.tile s.cur).oseq + 1

/-- The state of a SUB or UNSUB that awaits answers: what lands in gD is the status that comes (R199, R258). -/
def answered (y : Berth) (d : GReg) (l : Land) (e : Landing) (id : Nat) : Prop :=
  e.dest = .g d ∧ e.pos = y.pos + l.toNat ∧ e.wait = .answer id

/-- A subscription's record and the operand word of its slot, read from 32 bytes of the tile's scratchpad (R203). -/
structure Named (s : State) (a b : Word) (off : Nat) (r : SubRec) : Prop where
  run : OwnRun s a 32 off true
  operand : b.toNat < 2 ^ 44
  record : subRecord a b (ownNumber s off 32) = some r

/-- Whether the frame and slot that B names may be subscribed (R203, R240). -/
def mayFill (s : State) (b : Word) : Prop :=
  let y := (s.tile s.cur).frame (wbits b 39 32)
  y.st ≠ .free ∧ ∃ m, s.tmpl s.cur y.tidx = some m ∧ wbits b 43 40 < m.nslot.toNat ∧ m.kind (wbits b 43 40) < 2

end Sys2Proof.Claims

/-- R197, R201 and R205: PUB and SEND enter one message in the egress queue, its bytes still to be copied; SEND takes its flits from the
stream's window and stamps the stream's next sequence number. -/
def Obligations.MessagesEntered : Prop :=
  (∀ d a b s off, Issues (.pub d a b) s → let n := wbits (s.ops.rg b) 46 32
    (s.ops.rg b).toNat < 2 ^ 47 → 32 ≤ n → n ≤ 16384 → n % 32 = 0 → (s.ops.rg a).toNat = wbase + off → off + n ≤ padSize → off % 32 = 0 →
    Leaves (.pub d a b) s { s.withTile (withMsg (s.tile s.cur)
      { uid := s.uid, strm := false, name := s.ops.rg d, tag := (s.ops.rg b).setWidth 32, head := none, src := off, len := n,
        bytes := none, sseq := 0, who := s.issuer s.cur s.curB }) s.ops with uid := s.uid + 1 }) ∧
  (∀ d a b s off w, Issues (.send d a b) s → let n := (s.ops.rg b).toNat
    1 ≤ n → n ≤ 512 → (s.ops.rg a).toNat = wbase + off → off + 32 * n ≤ padSize → off % 32 = 0 →
    (s.tile s.cur).streams.find? (fun y => y.name == s.ops.rg d) = some w → n ≤ w.window ∧
    Leaves (.send d a b) s { s.withTile (withMsg
      { s.tile s.cur with streams := (s.tile s.cur).streams.map fun y =>
          if y.name = s.ops.rg d then { y with window := y.window - n, sseq := y.sseq + 1 } else y }
      { uid := s.uid, strm := true, name := s.ops.rg d, tag := 0, head := none, src := off, len := 32 * n, bytes := none,
        sseq := w.sseq, who := s.issuer s.cur s.curB }) s.ops with uid := s.uid + 1 })

/-- R199, R203, R204, R257 and R258: a SUB of a new record stores it and sends one packet to each distinct summit, its status landing with
the last answer; an equal record lands OK, a full store TBLFULL, and an UNSUB with no equal record NOSUB. -/
def Obligations.Subscriptions : Prop :=
  (∀ l d a b s off r, Issues (.subNet l d a b) s → Named s (s.ops.rg a) (s.ops.rg b) off r → mayFill s (s.ops.rg b) →
    let x := s.tile s.cur
    (d ≠ 0 → (∃ y ∈ x.subs, y.same r = true) → LandsG (.subNet l d a b) s d 0 l.toNat 0) ∧
    (d ≠ 0 → (∀ y ∈ x.subs, y.same r = false) → 256 ≤ x.subs.length → LandsG (.subNet l d a b) s d 1 l.toNat 0) ∧
    ((∀ y ∈ x.subs, y.same r = false) → x.subs.length < 256 → ∃ t o, exec (.subNet l d a b) s = .next t ∧ Reads s t ∧
      (t.tile s.cur).subs = x.subs ++ [r] ∧ (t.tile s.cur).subOps = x.subOps ++ [o] ∧ o.sub = r ∧ o.unsub = false ∧
      o.waits.map Prod.fst = (r.names.map (s.summitOf x.job)).eraseDups ∧ t.packets.length = s.packets.length + o.waits.length ∧
      (d = 0 → t.me = s.ops.retired s.nextIp) ∧
      (d ≠ 0 → ∃ e, answered s.ops d l e o.op ∧ t.me = ({ s.ops with landing := s.ops.landing ++ [e] } : Berth).retired s.nextIp))) ∧
  (∀ l d a b s off r, Issues (.unsub l d a b) s → Named s (s.ops.rg a) (s.ops.rg b) off r →
    let x := s.tile s.cur
    (d ≠ 0 → (∀ y ∈ x.subs, y.same r = false) → LandsG (.unsub l d a b) s d 3 l.toNat 0) ∧
    (∀ y, x.subs.find? (fun y => y.same r) = some y → ∃ t o, exec (.unsub l d a b) s = .next t ∧ Reads s t ∧
      (t.tile s.cur).subs = x.subs ∧ (t.tile s.cur).subOps = x.subOps ++ [o] ∧ o.sub = y ∧ o.unsub = true ∧
      o.waits.map Prod.fst = (y.names.map (s.summitOf x.job)).eraseDups ∧ t.packets.length = s.packets.length + o.waits.length ∧
      (d = 0 → t.me = s.ops.retired s.nextIp) ∧
      (d ≠ 0 → ∃ e, answered s.ops d l e o.op ∧ t.me = ({ s.ops with landing := s.ops.landing ++ [e] } : Berth).retired s.nextIp)))

/-- R205, R208, R215, R234, R268 and R330: GRANT sends a grant to the name's summit, SPAWN a packet to the tile that the placement gives, and
EVPOST an event to the tile that holds the neuron; a grant of 0 sends nothing. -/
def Obligations.PacketsInjected : Prop :=
  (∀ a b s, Issues (.grant a b) s → (s.ops.rg b).toNat < 2 ^ 16 →
    (s.ops.rg b = 0 → Acts (.grant a b) s s.ops) ∧
    (s.ops.rg b ≠ 0 → ∃ t : State, Injects (.grant a b) s
      { typ := 7, vc := 0, name := s.ops.rg a, aux := (s.ops.rg b).setWidth 32, dest := s.summitOf (s.tile s.cur).job (s.ops.rg a),
        dmod := s.dmodFor (s.tile s.cur).job (s.ops.rg a) false } t)) ∧
  (∀ a b s m, Issues (.spawn a b) s → (s.ops.rg a).toNat < 2 ^ 16 → (s.ops.rg b).toNat < 2 ^ 32 →
    s.tmpl s.cur ((s.ops.rg a).setWidth 16) = some m → m.list ≠ [] →
    ∃ t : State, Injects (.spawn a b) s
      { typ := 10, vc := 0, tag := (s.ops.rg b).setWidth 32, aux := (s.ops.rg a).setWidth 32,
        dest := m.list.getD ((s.ops.rg b).toNat % 2 ^ 20 % m.list.length) 0, dmod := s.modid } t) ∧
  (∀ d a b s p, Issues (.evpost d a b) s → wbits (s.ops.rg d) 39 20 = 0 → (s.ops.rg a).toNat < 2 ^ 32 → (s.ops.rg b).toNat < 2 ^ 32 →
    s.findPop (s.tile s.cur).job.toNat (nameTens (s.ops.rg d)) = some p → wbits (s.ops.rg d) 19 0 ≤ p.neur.toNat →
    let dest := p.list.getD (wbits (s.ops.rg d) 19 0 / p.per.toNat) 0
    dest.toNat ≠ s.cur → ∃ t : State, Injects (.evpost d a b) s
      { typ := 9, vc := 3, name := s.ops.rg d, tag := (s.ops.rg b).setWidth 32, aux := (s.ops.rg a).setWidth 32, dest,
        dmod := s.modid } t)

/-- R206, R207, R209 and R220: FRAME lands the index of the lowest free frame, here of a template with no subscription that awaits a slot;
FSLOT hands a fill to the frame engine; TAGOP lands the tag with the iterations added; ARRIVE captures the generation of a window object
or of one in global memory, and its arrival sets out once its release, at the scope .tile or .sys, has been performed (R294). -/
def Obligations.Tasks : Prop :=
  (∀ l d a b s m f, Issues (.frame l d a b) s → (s.ops.rg a).toNat < 2 ^ 16 → (s.ops.rg b).toNat < 2 ^ 32 →
    s.tmpl s.cur ((s.ops.rg a).setWidth 16) = some m → (∃ x ∈ m.list, x.toNat = s.cur) → m.subs = [] → m.req ≠ 0 →
    (s.tile s.cur).freeFrame = some f →
    ∃ t : State, exec (.frame l d a b) s = .next t ∧ t.me = (s.ops.gets (.g d) (BitVec.ofNat 512 f) l.toNat 0).retired s.nextIp ∧
      (t.tile s.cur).frame f =
        { st := .wait, ecls := m.ecls, urg := m.urg, tidx := (s.ops.rg a).setWidth 16, tag := (s.ops.rg b).setWidth 32,
          nslot := m.nslot.setWidth 5, req := m.req, ip := m.entry.setWidth 19 + (s.jobOf s.cur).ilen.setWidth 19 } ∧
      (∀ k, k ≠ f → (t.tile s.cur).frame k = (s.tile s.cur).frame k) ∧ (∀ x, t.byte x = s.byte x) ∧
      ∀ k x, t.padByte k x = s.padByte k x) ∧
  (∀ d a b s, Issues (.fslot d a b) s → (s.ops.rg a).toNat < 2 ^ 12 → (s.ops.rg b).toNat < 2 ^ 32 →
    let y := (s.tile s.cur).frame ((s.ops.rg a).toNat % 256)
    y.st ≠ .free → (s.ops.rg a).toNat / 256 < y.nslot.toNat → y.tag = (s.ops.rg b).setWidth 32 →
    Leaves (.fslot d a b) s (s.withTile { s.tile s.cur with fills := (s.tile s.cur).fills ++
      [{ frame := (s.ops.rg a).setWidth 8, slot := (s.ops.rg a).extractLsb' 8 4, value := s.ops.rg d, kind := .fslot,
         origin := some (.binding s.me.bind) }] } s.ops)) ∧
  (∀ l d a b s, Issues (.tagop l d a b) s → (s.ops.rg a).toNat < 2 ^ 32 → wbits (s.ops.rg b) 62 32 = 0 →
    ((s.ops.rg b).getLsbD 63 = false → wbits (s.ops.rg b) 31 20 = 0) →
    let sum : BitVec 21 := ((s.ops.rg a).setWidth 20).setWidth 21 + ((s.ops.rg b).setWidth 20).setWidth 21
    let context : BitVec 12 := (if (s.ops.rg b).getLsbD 63 then s.ops.rg b else s.ops.rg a).extractLsb' 20 12
    LandsG (.tagop l d a b) s d (0#31 ++ (sum.extractLsb' 20 1 ++ (context ++ sum.setWidth 20))) l.toNat 0) ∧
  (∀ a s, Issues (.arrive a) s → let ea := s.ops.rg a
    let sets (r : Arrival) (sc : Scope) : Prop := ∃ t : State, exec (.arrive a) s = .next t ∧ Reads s t ∧
      t.me = ({ s.ops with arrives := s.ops.arrives + 1 } : Berth).retired s.nextIp ∧ t.arrivals = s.arrivals ∧
      (t.tile s.cur).ops = (s.tile s.cur).ops ++ [{ opOf s (.arrive r) with rel := some sc }]
    let from1 (win : Bool) (pa : Nat) (cap : BitVec 32) : Arrival :=
      { t := s.cur, b := s.curB, bind := s.me.bind, tidx := ((s.tile s.cur).frame s.me.frame.toNat).tidx, tag := s.me.tag,
        frame := s.me.frame, job := (s.tile s.cur).job, inc := (s.jobOf s.cur).inc, addr := ea, win, pa, cap }
    (∀ off, OwnRun s ea 16 off true → sets (from1 true off (BitVec.ofNat 32 (ownNumber s (off + 4) 4))) .tile) ∧
    (∀ p ps, GlobalRun s ea 16 atomicNeeds (p :: ps) → p.addr < 2 ^ 44 →
      sets (from1 false p.addr (BitVec.ofNat 32 (numberOf (fun k => s.byte (p.addr + 4 + k)) 4))) .sys))

namespace Sys2Proof.Claims
open Sys2Proof.Machine

/-- The bank with neuron entries replaced, entry `k` by `f k` for `i ≤ k < i + n`, and nothing else changed. -/
structure Entries (b c : Bank) (i n : Nat) (f : Nat → Neuron) : Prop where
  inside : ∀ k, i ≤ k → k < i + n → c.entry k = f k
  outside : ∀ k, (k < i ∨ i + n ≤ k) → c.entry k = b.entry k
  rest : { c with entries := b.entries } = b

end Sys2Proof.Claims

/-- R213 to R218 and R327 to R338: STSNAP and EVSNAP write the steer counters or the entries, brought to the current tick, to the window and
clear them, EVSNAP unless A[63] is 1; EVCFG loads a parameter set or writes entries; EVRD lands an entry; EVTICK advances the tick, here
of a bank with no event queued. -/
def Obligations.EventBank : Prop :=
  (∀ a s off, Issues (.stsnap a) s → (s.ops.rg a).toNat = wbase + off → off % 64 = 0 → off + 512 ≤ frameBase → Unwatched s off 512 →
    (s.tile s.cur).marks = [] →
    ∃ t : State, exec (.stsnap a) s = .next t ∧ t.me = s.ops.retired s.nextIp ∧ (t.tile s.cur).steer = [] ∧
      StoresPad s t (off + ·) 512
        (numberOf (fun k => BitVec.ofNat 8 ((SMap.get 0 (s.tile s.cur).steer (k / 8)).toNat / 2 ^ (8 * (k % 8)))) 512)) ∧
  (∀ a b s off, Issues (.evsnap a b) s → let n := wbits (s.ops.rg a) 26 13
    let i := wbits (s.ops.rg a) 12 0
    let k := (s.tile s.cur).bank
    wbits (s.ops.rg a) 62 27 = 0 → 1 ≤ n → i + n ≤ 8192 → (s.ops.rg b).toNat = wbase + off → off % 8 = 0 → off + 8 * n ≤ frameBase →
    Unwatched s off (8 * n) → (s.tile s.cur).marks = [] →
    ∃ t : State, exec (.evsnap a b) s = .next t ∧ t.me = s.ops.retired s.nextIp ∧
      StoresPad s t (off + ·) (8 * n)
        (numberOf (fun j => BitVec.ofNat 8 ((k.snapWord (i + j / 8)).toNat / 2 ^ (8 * (j % 8)))) (8 * n)) ∧
      ((s.ops.rg a).getLsbD 63 = true → (t.tile s.cur).bank = k) ∧
      ((s.ops.rg a).getLsbD 63 = false →
        Entries k (t.tile s.cur).bank i n fun j => { k.entry j with pot := 0, u := k.t })) ∧
  (∀ a b s, (Issues (.evcfgEntries a b) s ∨ Issues (.evcfgPset a b) s) → let n := wbits (s.ops.rg a) 26 13
    let i := wbits (s.ops.rg a) 12 0
    let k := (s.tile s.cur).bank
    (s.ops.rg a).getLsbD 63 = true → wbits (s.ops.rg a) 62 27 = 0 → 1 ≤ n → i + n ≤ 8192 → (s.ops.rg b).getLsbD 60 = false →
    wbits (s.ops.rg b) 59 48 < 64 → ∃ c, Entries k c i n (fun _ => Neuron.ofWord (s.ops.rg b) k.t) ∧
      (Issues (.evcfgEntries a b) s → Leaves (.evcfgEntries a b) s (s.withTile { s.tile s.cur with bank := c } s.ops)) ∧
      (Issues (.evcfgPset a b) s → Leaves (.evcfgPset a b) s (s.withTile { s.tile s.cur with bank := c } s.ops))) ∧
  (∀ a b s off (k : Fin 64), Issues (.evcfgPset a b) s → (s.ops.rg a).toNat = k.val → OwnRun s (s.ops.rg b) 32 off true →
    let p : BitVec 256 := BitVec.ofNat 256 (ownNumber s off 32)
    psetOk p = true → ∃ t : State, exec (.evcfgPset a b) s = .next t ∧ Reads s t ∧ t.me = s.ops.retired s.nextIp ∧
      (t.tile s.cur).bank = { (s.tile s.cur).bank with psets := (s.tile s.cur).bank.psets.set k p }) ∧
  (∀ l d a s, Issues (.evrd l d a) s → (s.ops.rg a).toNat < 8192 → let k := (s.tile s.cur).bank
    let e := k.entry (s.ops.rg a).toNat
    let age : BitVec 16 := if (k.t - e.u).toNat < 65536 then (k.t - e.u).setWidth 16 else 0xFFFF
    LandsG (.evrd l d a) s d (BitVec.ofBool e.ref ++ (BitVec.ofBool e.fired ++ (BitVec.ofBool e.sat ++ (0#7 ++ (e.set ++ (age ++ e.pot))))))
      l.toNat 0) ∧
  (∀ a s, Issues (.evtick a) s → (s.ops.rg a).toNat < 2 ^ 16 → let k := (s.tile s.cur).bank
    (s.ops.rg a = 0 → k.src = false → Acts (.evtick a) s s.ops) ∧
    (s.curB ≠ 4 → k.src = true → Traps (.evtick a) s s.illegal) ∧
    (s.ops.rg a ≠ 0 → k.src = false → k.q = [] → Leaves (.evtick a) s
      (s.withTile { s.tile s.cur with bank := { k with t := k.t + (s.ops.rg a).setWidth 32, first := k.t + 1 } } s.ops)))

namespace Sys2Proof.Claims
open Sys2Proof.Machine

/-! ### The Filhus registers (R11 to R13, R304, R315, R319, R326, R356, R358, R361, R383, R391, R417) -/

/-- The module is up, and no device unit has been directed to an unpopulated address. -/
def Up (s : State) : Prop := s.booted = true ∧ s.stuck = none

/-- The event completes, in the state given. -/
def Becomes (i : Instr) (s t : State) : Prop := exec i s = .next t

/-- The write gets an error response, and nothing else changes (R13). -/
def Denied (i : Instr) (s : State) : Prop := Becomes i s { s with resp := .error }

/-- The address of a register of the memory-system block, of the job table and of the cairn controller (R417). -/
def msReg (o : Nat) : Nat := 0x40000000000 + o

/-- Whether the two words of a channel range may stand when it is valid (R304, R305). -/
def rangeFits (w0 w1 : Word) : Prop :=
  let nch := wbits w1 24 14
  wbits w0 19 0 < wbits w0 52 32 ∧ wbits w0 52 32 ≤ 2 ^ 20 ∧ wbits w1 13 4 + nch ≤ 1024 ∧
    (wbits w1 2 0 = 4 → nch = 1024 ∧ wbits w1 13 4 = 0) ∧
    (wbits w1 2 0 = 2 ∨ wbits w1 2 0 = 3 ∨ wbits w1 2 0 = 6 ∨ wbits w1 2 0 = 7 → ∃ k, nch = 2 ^ k)

/-- A register of the map whose write stores its fields and does nothing else: its address, the values that may be written, and the
state after the write (R231, R315, R365, R383, R392, R404, R409, R414, R427). -/
structure PlainReg where
  addr : Nat
  fits : Word → Prop
  put : State → Word → State

/-- Some of those registers: JTSEL, JTPRIO, JTALLOT and JTMOVE of the selected job, the page of a shootdown, the error threshold, a
field's acknowledgement times, trace base and energy window, a Niesk port's control, a tile's sampling, and the mailbox's argument. -/
def plainRegs (f : BitVec 6) (q : BitVec 5) (n : BitVec 17) : List PlainReg :=
  [{ addr := 0x40100000000, fits := fun v => v.toNat < 2 ^ 12 ∧ v ≠ 0, put := fun s v => { s with jtsel := v.setWidth 12 } },
   { addr := msReg 0x20008, fits := fun v => v.toNat < 2 ^ 56, put := fun s v => { s with shootva := v.setWidth 56 } },
   { addr := msReg 0x20030, fits := fun v => v.toNat < 2 ^ 16, put := fun s v => { s with sethr := v.setWidth 16 } },
   { addr := msReg (0x40010 + 0x40 * f.toNat),
     fits := fun v => v.toNat < 2 ^ 20 ∧ 256 ≤ v.toNat / 16 ∧ v.toNat % 16 ≠ 0,
     put := fun s v => s.setField f.toNat { s.field f.toNat with ackto := v.extractLsb' 4 16, nretry := v.setWidth 4 } },
   { addr := msReg (0x60000 + 0x100 * f.toNat), fits := fun _ => True,
     put := fun s v => s.setField f.toNat { s.field f.toNat with trbase := v } },
   { addr := msReg (0x70008 + 0x100 * f.toNat), fits := fun v => 16 ≤ v.toNat ∧ v.toNat ≤ 26,
     put := fun s v => s.setField f.toNat { s.field f.toNat with ewin := v.setWidth 5 } },
   { addr := msReg (0x50000 + 0x40 * q.toNat), fits := fun v => v.toNat < 2 ^ 48 ∧ v.toNat % 2 ^ 16 < 2,
     put := fun s v => s.setQuay q.toNat { s.quay q.toNat with deadto := v.extractLsb' 32 16, etype := v.extractLsb' 16 16,
                                                               en := v.getLsbD 0 } },
   { addr := msReg (0x40000010 + 0x4000 * n.toNat),
     fits := fun v => v.toNat < 2 ^ 11 ∧ 8 ≤ v.toNat / 2 % 32 ∧ v.toNat / 2 % 32 ≤ 24,
     put := fun s v => s.setTile n.toNat { s.tile n.toNat with smpcfg := v.setWidth 11 } },
   { addr := 0x40100010008, fits := fun v => v.toNat < 2 ^ 44,
     put := fun s v => { s with cairn := { s.cairn with arg := v.setWidth 44 } } }]

/-- A snapshot-and-clear counter of the map: its address, its value, and the state with it 0 (R12, R358, R387, R392, R404, R409). -/
def countersOf (s : State) (f : BitVec 6) (q : BitVec 5) (n : BitVec 17) : List (Nat × Word × State) :=
  let x := s.tile n.toNat
  let y := s.quay q.toNat
  let r := s.router n.toNat
  [(msReg 0x20058, s.orphlost.setWidth 64, { s with orphlost := 0 }),
   (msReg (0x30008 + 16 * q.toNat), y.rldrop.setWidth 64, s.setQuay q.toNat { y with rldrop := 0 }),
   (msReg (0x40020 + 0x40 * f.toNat), (s.field f.toNat).detour.setWidth 64, s.setField f.toNat { s.field f.toNat with detour := 0 }),
   (msReg (0x50018 + 0x40 * q.toNat), y.nptx.setWidth 64, s.setQuay q.toNat { y with nptx := 0 }),
   (msReg (0x60020 + 0x100 * f.toNat), (s.field f.toNat).trdropf.setWidth 64,
     s.setField f.toNat { s.field f.toNat with trdropf := 0 }),
   (msReg (0x400000A0 + 0x4000 * n.toNat), x.indisc.setWidth 64, s.setTile n.toNat { x with indisc := 0 }),
   (msReg (0x400000B0 + 0x4000 * n.toNat), x.trdrop.setWidth 64, s.setTile n.toNat { x with trdrop := 0 })]
  ++ if n.toNat % 2048 < 1024 then
    [(msReg (0x1000020 + 0x40 * n.toNat), r.malf.setWidth 64, s.setRouter n.toNat { r with malf := 0 })] else []

end Sys2Proof.Claims

/-- R11, R12, R13 and R417: a write of a plain register of the Filhus map stores its fields, which a read then returns, and one that a
reserved bit or a limit forbids gets an error response and changes nothing; a read of a snapshot-and-clear counter returns its value and
leaves it 0; an access outside memory, the PCIe windows and the register blocks gets an error response. -/
def Obligations.RegisterMap : Prop :=
  (∀ s f q (n : BitVec 17) r v, Up s → n.toNat % 2048 < 1088 → r ∈ plainRegs f q n →
    (r.fits v → let t := { r.put s v with resp := .ok }
      Becomes (.registerWrite r.addr v) s t ∧ Becomes (.rscRead r.addr) t { t with resp := .value v }) ∧
    (¬r.fits v → Denied (.registerWrite r.addr v) s)) ∧
  (∀ s f q (n : BitVec 17) a x u, Up s → n.toNat % 2048 < 1088 → (a, x, u) ∈ countersOf s f q n →
    Becomes (.rscRead a) s { u with resp := .value x }) ∧
  ∀ s a v, Up s → populated a = false → ¬(0x60000000000 ≤ a ∧ a < 0x70000000000) →
    (∀ b, b ∈ [msReg 0, 0x40100000000, 0x40100010000] → a / 2 ^ 32 ≠ b / 2 ^ 32) →
    Denied (.registerWrite a v) s ∧ Denied (.rscRead a) s

/-- R304, R326, R356, R358, R361, R383 and R391: the writes that act when they are made: a channel range, PER, ORPHQ, RNOTE, a watchpoint,
ARBW and MODID take a value that fits and refuse any other. -/
def Obligations.ModuleWrites : Prop :=
  (∀ s v, Up s →
    (v.toNat < 2 ^ 32 ∧ 64 ≤ v.toNat → Becomes (.tickPeriodWrite v) s { s with resp := .ok, perNext := v.setWidth 32 }) ∧
    (2 ^ 32 ≤ v.toNat ∨ v.toNat < 64 → Denied (.tickPeriodWrite v) s)) ∧
  (∀ s f v, Up s → f < 64 →
    (v.toNat < 2 ^ 12 ∧ v.toNat % 16 ≠ 0 ∧ v.toNat / 16 % 16 ≠ 0 ∧ v.toNat / 256 ≠ 0 → Becomes (.arbwWrite f v) s
      ({ s with resp := .ok }.setField f { s.field f with w1 := v.extractLsb' 0 4, w2 := v.extractLsb' 4 4, w3 := v.extractLsb' 8 4 })) ∧
    (2 ^ 12 ≤ v.toNat ∨ v.toNat % 16 = 0 ∨ v.toNat / 16 % 16 = 0 ∨ v.toNat / 256 % 16 = 0 → Denied (.arbwWrite f v) s)) ∧
  (∀ s f v, Up s → f < 64 → s.packets = [] → v.toNat < 2 ^ 10 → 8 ≤ v.toNat →
    Becomes (.arbaWrite f v) s ({ s with resp := .ok }.setField f { s.field f with arba := v.setWidth 10 })) ∧
  (∀ s v, Up s → let busy := ∃ j ∈ s.jobs, j.2.st = .running ∨ j.2.st = .gated
    (v.toNat < 2 ^ 19 → ¬busy → Becomes (.modidWrite v) s { s with resp := .ok, modid := v.setWidth 19 }) ∧
    (busy → Denied (.modidWrite v) s)) ∧
  (∀ s (r : BitVec 6) v, Up s → let x := SMap.get ({} : ChanRange) s.ranges r.toNat
    (v &&& 0xFFE00000FFF00000 = 0 →
      Becomes (.channelRangeWrite r false v) s { s with resp := .ok, ranges := s.ranges.put r.toNat { x with w0 := v } }) ∧
    (v.toNat < 2 ^ 25 → (v.getLsbD 3 = false ∨ rangeFits x.w0 v) →
      Becomes (.channelRangeWrite r true v) s { s with resp := .ok, ranges := s.ranges.put r.toNat { x with w1 := v } }) ∧
    (v.getLsbD 3 = true → wbits x.w0 52 32 ≤ wbits x.w0 19 0 → Denied (.channelRangeWrite r true v) s)) ∧
  (∀ s v, Up s → s.cairn.pending = [] → Becomes (.orphqWrite v) s { s with resp := .ok, orphq := v }) ∧
  (∀ s v, Up s → v.toNat < 2 ^ 32 → v.setWidth 12 ≠ 0#12 → (s.tile (v.toNat / 2 ^ 12 % 2 ^ 17)).job = v.setWidth 12 → v.toNat / 2 ^ 29 ≤ 4 →
    Becomes (.rnote v) s { s with resp := .ok, rnote := v.setWidth 32,
                                  replies := s.replies ++ [{ t := v.toNat / 2 ^ 12 % 2 ^ 17, b := v.extractLsb' 29 3 }] }) ∧
  ∀ s (k : BitVec 3) v, Up s → s.jtsel ≠ 0 → let j := s.jtsel.toNat
    let x := s.job j
    (v.toNat < 2 ^ 32 → wbits x.wp0[k.toFin] 61 44 = 0 → ¬(x.wp0[k.toFin].getLsbD 63 = true ∧ v = 0) →
      (x.wp0[k.toFin].getLsbD 62 = false → wbits x.wp0[k.toFin] 43 19 = 0) →
      Becomes (.watchpointWrite k true v) s ({ s with resp := .ok }.setJob j { x with wp1 := x.wp1.set k.toFin v })) ∧
    (2 ^ 32 ≤ v.toNat → Denied (.watchpointWrite k true v) s) ∧
    (v &&& 0x3FFFF00000000000 ≠ 0 → Denied (.watchpointWrite k false v) s)

/-- R315, R318, R319 and R326: a shootdown is BUSY until it completes, and then the job's translations are gone from every TLB and from every
spur translation cache; CSNAP writes the five counters of the 1,024 channels and clears them; a tick adds 1 to TKCNT and to the tick of
each bank that follows it, and takes the new period. -/
def Obligations.ShootSnapTick : Prop :=
  (∀ s v, Up s → s.shootBusy = false → v.toNat < 2 ^ 16 → v.toNat / 2 ^ 12 % 4 < 2 →
    Becomes (.shoot v) s { s with resp := .ok, shoot := v.setWidth 15, shootBusy := v.setWidth 12 != 0#12 }) ∧
  (∀ s, s.stuck = none → s.shootBusy = true → s.shoot.getLsbD 14 = false →
    let job : BitVec 12 := s.shoot.setWidth 12
    let gone (e : TlbEnt) : Bool := if s.shoot.extractLsb' 12 2 = 0 then e.covers job s.shootva.toNat else e.job == job
    ∃ t : State, Becomes .shootDone s t ∧ t.shootBusy = false ∧ (∀ a, t.byte a = s.byte a) ∧
      (∀ k, (s.tile k).job = job → (t.tile k).tlb = (s.tile k).tlb.filter fun e => !gone e) ∧
      (∀ k, (s.tile k).job ≠ job → (t.tile k).tlb = (s.tile k).tlb) ∧
      ∀ p, (t.spur p).tc = (s.spur p).tc.filter fun e => !gone e) ∧
  (∀ s v, Up s → s.csnapBusy = false → v &&& 0x7FFFF00000000000 = 0 → let a := v.toNat % 2 ^ 44
    populatedRun a 40960 = true → Apart s → NoWatch s →
    ∃ t : State, Becomes (.csnap v) s t ∧ t.csnapBusy = true ∧ t.resp = .ok ∧ t.chans = [] ∧
      (∀ c < 1024, let x := SMap.get ({} : ChanCnt) s.chans c
        [0, 1, 2, 3, 4].map (fun i => t.pw (a + 40 * c + 8 * i)) =
          [x.act.setWidth 64, x.rconf.setWidth 64, x.refst.setWidth 64, x.brd.setWidth 64, x.bwr.setWidth 64]) ∧
      ∀ k, (k < a ∨ a + 40960 ≤ k) → t.byte k = s.byte k) ∧
  (∀ s, s.stuck = none → s.csnapBusy = true → Becomes .csnapDone s { s with csnapBusy := false }) ∧
  ∀ s, Up s → ∃ t : State, Becomes .tick s t ∧ t.tkcnt = s.tkcnt + 1 ∧ t.per = s.perNext ∧
    { t with tkcnt := s.tkcnt, per := s.per, tiles := s.tiles } = s ∧
    ∀ k, let x := s.tile k
      (t.tile k).bank.t = x.bank.t +
        (if x.powered = true ∧ x.bank.src = true ∧ x.gate = .idle ∧ x.stopped = false then 1 else 0) ∧
      (t.tile k).bank.q = x.bank.q ∧ (t.tile k).pad = x.pad ∧ (t.tile k).berths = x.berths

namespace Sys2Proof.Claims
open Sys2Proof.Machine

/-- A mailbox command as the write of CRCMD takes it: the buffer at CRARG is aligned and populated, and the controller is idle (R427,
R428). -/
structure Mailbox (s : State) (v : Word) (cmd size : Nat) : Prop where
  up : Up s
  command : v = BitVec.ofNat 64 cmd
  idle : s.retireBusy = false
  aligned : s.cairn.arg.toNat % 64 = 0
  populated : populatedRun s.cairn.arg.toNat size = true
  apart : Apart s

/-- The command ends with RES 0, its output stands in the buffer, and no other byte has changed (R428). -/
def Outputs (i : Instr) (s : State) (out : List Byte) : Prop :=
  ∃ t : State, Becomes i s t ∧ t.resp = .ok ∧ t.cairn.res = 0 ∧ (∀ k < out.length, t.byte (s.cairn.arg.toNat + k) = out.getD k 0) ∧
    ∀ a, (a < s.cairn.arg.toNat ∨ s.cairn.arg.toNat + out.length ≤ a) → t.byte a = s.byte a

/-- The 64 bytes of a queue record as little-endian words, of a record that no job has. -/
def orphanWords (s : State) (r : FaultRec) : List Word := recWords s r false

end Sys2Proof.Claims

/-- R424 and R427 to R430: the mailbox's commands write the report over the buffer's nonce, the repair words and the log, the certificate,
and the status; a token is stored when its check passes and RES is the check's code; an unassigned command has RES 6, an unaligned
buffer RES 7; the management port answers the same commands. -/
def Obligations.CairnCommands : Prop :=
  (∀ s v, Mailbox s v 1 256 → Outputs (.attest v) s ({ s with resp := .ok }.report (s.pbytes s.cairn.arg.toNat 32))) ∧
  (∀ s v, Mailbox s v 3 20480 → Outputs (.map v) s s.mapBytes) ∧
  (∀ s v, Mailbox s v 4 144 → Outputs (.cert v) s certBytes) ∧
  (∀ s v, Mailbox s v 5 16 → Outputs (.status v) s ((List.range 16).map (Config.statusByte s.cairn.step s.cairn.cause s.cairn.tokenRes
    (Config.temperature s.fresh) (Config.temperature (s.fresh + 1))))) ∧
  (∀ s v, Mailbox s v 2 600 → let bs := s.pbytes s.cairn.arg.toNat 600
    Becomes (.token v) s { s with resp := .ok, cairn := { s.cairn with
      cmd := 2, res := BitVec.ofNat 8 (s.tokenCheck bs), token := if s.tokenCheck bs = 0 then some bs else s.cairn.token } }) ∧
  (∀ s v, Up s → s.retireBusy = false → (v = 0 ∨ 6 ≤ v.toNat) → v.toNat < 256 →
    Becomes (.crcmdUnassigned v) s { s with resp := .ok, cairn := { s.cairn with cmd := v.setWidth 8, res := 6 } }) ∧
  (∀ s v, Up s → s.retireBusy = false → v = 4 → s.cairn.arg.toNat % 64 ≠ 0 →
    Becomes (.cert v) s { s with resp := .ok, cairn := { s.cairn with cmd := 4, res := 7 } }) ∧
  ∀ s m, Up s → s.cairn.step ≠ 0 → s.retireBusy = false →
    ∃ t : State, Becomes (.mgmtRequest m) s t ∧
      { t with fresh := s.fresh
               cairn := { t.cairn with reply := s.cairn.reply, inlet := s.cairn.inlet, wafer := s.cairn.wafer } } = s ∧
      (m.cmd.setWidth 8 ≠ 5#8 → { t with cairn := { t.cairn with reply := s.cairn.reply } } = s) ∧
      (m.cmd.setWidth 8 = 4#8 → t.cairn.reply.drop 8 = certBytes) ∧
      (m.cmd.setWidth 8 = 5#8 → t.cairn.reply.drop 8 = (List.range 16).map (Config.statusByte s.cairn.step s.cairn.cause s.cairn.tokenRes
        (Config.temperature s.fresh) (Config.temperature (s.fresh + 1)))) ∧
      (m.cmd.setWidth 8 = 3#8 → t.cairn.reply.drop 8 = s.mapBytes) ∧ (m.cmd.setWidth 8 = 1#8 → t.cairn.reply.drop 8 = s.report m.data) ∧
      (m.cmd.setWidth 8 = 2#8 → t.cairn.reply = leBytes 8 (m.cmd.toNat % 2 ^ 40 + 6 * 2 ^ 40 + m.cmd.toNat / 2 ^ 48 * 2 ^ 48))

/-- R426 and R431 to R433: an overload holds SOFT, and above 40 kW HARD, in every field until it ends; a hot field holds HARD until it has
cooled, and is recorded; a supply below 48 V loses what is volatile and keeps the fuses, the log, the token and the boot count; power
applied counts a boot, and a boot whose first test fails stops there; an inbound PCIe transaction writes or reads where the IOMMU
maps it. -/
def Obligations.PowerHeatPcie : Prop :=
  (∀ s hard, Up s → ∃ t : State, Becomes (.powerOverload hard) s t ∧ (∀ a, t.byte a = s.byte a) ∧ t.tiles = s.tiles ∧
    ∀ f < 64, (t.field f).holdSoft = true ∧ (t.field f).holdHard = ((s.field f).holdHard || hard) ∧
      { t.field f with holdSoft := (s.field f).holdSoft, holdHard := (s.field f).holdHard } = s.field f) ∧
  (∀ s hard, Up s → ∃ t : State, Becomes (.powerOverloadEnd hard) s t ∧ (∀ a, t.byte a = s.byte a) ∧ t.tiles = s.tiles ∧
    ∀ f < 64, (t.field f).holdSoft = ((s.field f).holdSoft && hard) ∧ (t.field f).holdHard = false ∧
      { t.field f with holdSoft := (s.field f).holdSoft, holdHard := (s.field f).holdHard } = s.field f) ∧
  (∀ s f n, Up s → s.orphq = 0 → s.cairn.pending = [] → 950 < n → n ≤ 1050 →
    ∃ t : State, Becomes (.thermalEvent f n) s t ∧ t.cairn.wafer = BitVec.ofNat 16 n ∧ (t.field f).holdHeat = true ∧ t.tiles = s.tiles ∧
      (∀ k, k ≠ f → t.field k = s.field k) ∧ t.cairn.pending.length = 1) ∧
  (∀ s f n, Up s → s.orphq = 0 → s.cairn.pending = [] → s.tiles.risesFrom 0 = true → 1050 < n →
    ∃ t : State, Becomes (.thermalEvent f n) s t ∧ (∀ k, t.tile k = { retired := (s.tile k).retired }) ∧ t.jobs = [] ∧ t.packets = [] ∧
      t.mem = s.mem ∧ ∀ k, (t.field k).powered = false) ∧
  (∀ s f n, Up s → n ≤ 950 → Becomes (.thermalEvent f n) s s) ∧
  (∀ s f, Up s → Becomes (.thermalHoldEnd f) s (s.setField f { s.field f with holdHeat := false })) ∧
  (∀ s, Becomes .undervoltage s { State.reset with
    schedule := s.schedule, fresh := s.fresh, uid := s.uid,
    cairn := { grade := s.cairn.grade, logfull := decide (1024 ≤ s.cairn.log.length), log := s.cairn.log, token := s.cairn.token,
               boots := s.cairn.boots } }) ∧
  (∀ s, s.booted = false → ∃ t : State, Becomes .powerOn s t ∧ t.cairn.boots = s.cairn.boots + 1 ∧
    let n := (s.cairn.boots + 1).toNat
    (Config.bootPasses n 1 = false → t.booted = false ∧ t.cairn.step = 1) ∧
    (Config.bootPasses n 1 = true → Config.bootPasses n 2 = false → t.booted = false ∧ t.cairn.step = 2) ∧
    (Config.bootPasses n 1 = true → Config.bootPasses n 2 = true → Config.bootPasses n 4 = false → t.booted = false ∧ t.cairn.step = 4) ∧
    (Config.bootPasses n 1 = true → Config.bootPasses n 2 = true → Config.bootPasses n 4 = true →
      t.booted = true ∧ t.cairn.step = 6 ∧ (∀ f < 64, (t.field f).powered = true) ∧
        ∀ k < min Config.firmwareSize (2 ^ 43), t.byte (2 ^ 43 + k) = Config.firmware k)) ∧
  ∀ s x, Up s →
    (pciePlaces x = none → Becomes (.pcieInbound x) s { s with pcie := s.pcie ++ [none] }) ∧
    (∀ ps, pciePlaces x = some ps → x.write = false → Becomes (.pcieInbound x) s { s with pcie := s.pcie ++ [some (ps.map s.pb)] }) ∧
    (∀ ps, pciePlaces x = some ps → x.write = true → ps.Nodup → Apart s → ∃ t : State, Becomes (.pcieInbound x) s t ∧ t.pcie = s.pcie ++ [some []] ∧
      (∀ k < ps.length, t.byte (ps.getD k 0) = x.bytes.getD k 0) ∧ ∀ a, a ∉ ps → t.byte a = s.byte a)

/-- R365, R404 to R415: a precise stop and its release; a dump; a sample and a step of the critical path enter one record in the tile's
trace queue; the queue drains to the field's port and the port to its ring; every 256 cycles the field adds the tiles' cycles
and its activity to its energy and sets the flags that the window's energy reaches; a window begins with every flag clear; a corrected error
is counted, and a clean copy with a double error is invalidated. -/
def Obligations.ObservationAndEnergy : Prop :=
  (∀ s n v, Up s → v.toNat < 4 → v.getLsbD 0 = true →
    Becomes (.debugStop n v) s ({ s with resp := .ok }.setTile n { s.tile n with stop := true, dall := v.getLsbD 1, stopped := true })) ∧
  (∀ s n v, Up s → v.toNat < 4 → v.getLsbD 0 = false →
    Becomes (.debugRelease n v) s ({ s with resp := .ok }.setTile n
      { s.tile n with stop := false, dall := v.getLsbD 1, stopped := false, halted := false, bphit := false })) ∧
  (∀ s n v, Up s → v.toNat < 8 → v.getLsbD 2 = true →
    ((s.tile n).stopped = true → (s.tile n).dump = false → v.getLsbD 0 = true → Becomes (.debugDump n v) s
      ({ s with resp := .ok }.setTile n { s.tile n with stop := true, dall := v.getLsbD 1, dump := true })) ∧
    ((s.tile n).stopped = false ∨ (s.tile n).dump = true → Denied (.debugDump n v) s)) ∧
  (∀ s n, s.stuck = none → (s.tile n).dump = true → (s.tile n).stopped = true → Apart s → let x := s.tile n
    let fs := (List.range 256).filter fun f => (x.frame f).st != .free && (x.dall || (x.frame f).st == .wait)
    (fs ≠ [] → populatedRun x.dumpaddr.toNat (32 * fs.length) = true) →
    ∃ t : State, Becomes (.dumpDone n) s t ∧ (t.tile n).dump = false ∧ (t.tile n).dumpstat = BitVec.ofNat 9 fs.length ∧
      ∀ a, (a < x.dumpaddr.toNat ∨ x.dumpaddr.toNat + 32 * fs.length ≤ a) → t.byte a = s.byte a) ∧
  (∀ s n, s.stuck = none → s.tileLive n = true → (s.tile n).smpcfg.getLsbD 0 = true → (s.field (n / 2048)).trbase ≠ 0 →
    (s.tile n).traceQ.length < 4 → let c := (s.field (n / 2048)).cyc
    c.toNat % 2 ^ ((s.tile n).smpcfg.toNat / 2 % 32) = 0 → (s.tile n).sampleCyc ≠ some c → ∃ t r, Becomes (.sample n) s t ∧ (t.tile n).traceQ = (s.tile n).traceQ ++ [r] ∧
      r.setWidth 8 = 1#8 ∧ (t.tile n).berths = (s.tile n).berths ∧ ∀ a, t.byte a = s.byte a) ∧
  (∀ s k w, s.stuck = none → s.cpWalks[k]? = some w → let o := s.walkOrigin w
    s.tileLive o.1 = true → (s.field (o.1 / 2048)).trbase ≠ 0 → (s.tile o.1).traceQ.length < 4 →
    ∃ t r, Becomes (.criticalPathStep k) s t ∧ (t.tile o.1).traceQ = (s.tile o.1).traceQ ++ [r] ∧ r.setWidth 8 = 6#8 ∧
      ∀ a, t.byte a = s.byte a) ∧
  (∀ s n r rs, s.stuck = none → (s.tile n).traceQ = r :: rs → let f := s.field (n / 2048)
    f.trbase ≠ 0 → f.powered = true → Becomes (.traceDrain n) s
      ((s.setTile n { s.tile n with traceQ := rs }).setField (n / 2048)
        (if f.traceQ.length < 64 then { f with traceQ := f.traceQ ++ [r] } else { f with trdropf := satInc f.trdropf 1 }))) ∧
  (∀ s f r rs, s.stuck = none → (s.field f).traceQ = r :: rs → let x := s.field f
    x.trbase ≠ 0 → x.powered = true →
    ((x.trprod - x.trcons).toNat = 2 ^ x.trlogn.toNat →
      Becomes (.traceRingWrite f) s (s.setField f { x with traceQ := rs, trdropf := satInc x.trdropf 1 })) ∧
    ((x.trprod - x.trcons).toNat ≠ 2 ^ x.trlogn.toNat →
      let a := x.trbase.toNat + 32 * (x.trprod.toNat % 2 ^ x.trlogn.toNat)
      populatedRun a 32 = true → Apart s → ∃ t : State, Becomes (.traceRingWrite f) s t ∧ (t.field f).trprod = x.trprod + 1 ∧ (t.field f).traceQ = rs ∧
        numberOf (fun k => t.byte (a + k)) 32 = r.toNat ∧ ∀ k, (k < a ∨ a + 32 ≤ k) → t.byte k = s.byte k)) ∧
  (∀ (s : State) f, s.stuck = none → (s.field f).powered = true → (s.field f).wf = true → let x := s.field f
    let c := (x.cyc.toNat / 256 + 1) * 256
    let on := (s.tiles.filter fun kx => kx.1 / 2048 = f ∧ kx.2.powered = true).length
    let off := ((List.range 1088).filter fun i =>
      let n := 2048 * f + i
      s.enabled n && !(s.tile n).retired && !(s.tile n).powered).length
    ∃ t : State, Becomes (.energyAddition f) s t ∧ (t.field f).cyc = BitVec.ofNat 64 c ∧ (t.field f).activity = [] ∧
      (t.field f).energy = x.energy + (x.activity.map fun kn => kn.2 * (Config.energyCoef (kn.1 / 4096)).toNat).sum +
        256 * on * (Config.energyCoef 0).toNat + 256 * off * (Config.energyCoef 1).toNat ∧
      (x.cyc.toNat / 2 ^ x.wlog.toNat = c / 2 ^ x.wlog.toNat → (t.field f).energyBase = x.energyBase ∧ (t.field f).soft =
        (x.soft || (x.esoft != 0 && decide (x.esoft.toNat * 2 ^ 32 ≤ (t.field f).energy - x.energyBase)))) ∧
      (x.cyc.toNat / 2 ^ x.wlog.toNat ≠ c / 2 ^ x.wlog.toNat → (t.field f).energyBase = (t.field f).energy ∧
        (t.field f).soft = false ∧ (t.field f).wlog = x.ewin) ∧
      (∀ k, k ≠ f → t.field k = s.field k) ∧ t.tiles = s.tiles ∧ t.mem = s.mem) ∧
  (∀ (s : State) f, s.stuck = none → (s.field f).powered = true → 8 ≤ (s.field f).wlog.toNat → let x := s.field f
    ∃ t : State, Becomes (.energyWindowStart f) s t ∧
      (t.field f).cyc = BitVec.ofNat 64 ((x.cyc.toNat / 2 ^ x.wlog.toNat + 1) * 2 ^ x.wlog.toNat) ∧ (t.field f).wlog = x.ewin ∧
      (t.field f).energyBase = (t.field f).energy ∧ (t.field f).jobBase = (t.field f).jobEnergy ∧ (t.field f).soft = false ∧
      (t.field f).hard = false ∧ (t.field f).overJobs = [] ∧ (∀ k, k ≠ f → t.field k = s.field k) ∧ t.tiles = s.tiles ∧ t.mem = s.mem) ∧
  (∀ (s : State) n u, s.stuck = none → s.tileLive n = true → (s.sethr = 0 ∨ (s.tile n).corrected + 1 < s.sethr.toNat) →
    Becomes (.softErrorCorrected n (.single u)) s (s.setTile n { s.tile n with corrected := (s.tile n).corrected + 1 })) ∧
  ∀ (s : State) n key, s.stuck = none → s.tileLive n = true → (s.sethr = 0 ∨ (s.tile n).corrected + 1 < s.sethr.toNat) →
    ((∀ c ∈ (s.tile n).tdc, c.key = key → c.dirty ≠ 0) → Becomes (.softErrorCorrected n (.cleanCopy key)) s s) ∧
    ((∃ c ∈ (s.tile n).tdc, c.key = key) → (∀ c ∈ (s.tile n).tdc, c.key = key → c.dirty = 0) →
      ∃ t : State, Becomes (.softErrorCorrected n (.cleanCopy key)) s t ∧ (t.tile n).corrected = (s.tile n).corrected + 1 ∧
        (t.tile n).tdc = (s.tile n).tdc.filter (fun c => c.key != key) ∧ (∀ k, k ≠ n → t.tile k = s.tile k) ∧ t.mem = s.mem)

namespace Sys2Proof.Claims
open Sys2Proof.Machine

/-! ### Jobs (R230 to R235, R272, R346, R367 to R370, R375, R434, R436) -/

/-- A write of JTCMD whose command is `code`, with nothing reserved set, for a selected job that can take a command (R231, R232). -/
structure Commands (s : State) (v : Word) (code j : Nat) : Prop where
  up : Up s
  command : v.toNat % 16 = code
  fits : v.toNat < 2 ^ 24
  selected : s.jtsel ≠ 0 ∧ j = s.jtsel.toNat
  scope : code = 3 ∨ code = 4 → 1 ≤ v.toNat / 16 % 8 ∧ v.toNat / 16 % 8 ≤ 4
  ready : (s.job j).busy = false ∧ (s.job j).st ≠ .scrubbing ∧ (s.job j).st ≠ .gating ∧ (s.job j).st ≠ .ending

/-- The command is refused with a code, and nothing else changes (R232). -/
def Refused (i : Instr) (s : State) (j : Nat) (e : BitVec 4) : Prop :=
  Becomes i s ({ s with resp := .ok }.setJob j { s.job j with err := e })

/-- No queue takes records: what is posted stays with the cairn controller (R357, R358). -/
def Unposted (s : State) : Prop := s.orphq = 0 ∧ ∀ j, (s.job j).fq = 0 ∧ (s.job j).sq = 0

/-- Whether a GATE or RESUME names a unit of the job (R232). -/
def unitNamed (s : State) (v : Word) (j : Nat) : Prop := v.toNat / 16 % 8 = 4 ∨ v.toNat / 128 ∈ s.tilesOf j

/-- The berths of a tile have nothing to resume. -/
def Resting (x : Tile) : Prop := x.subs = [] ∧ x.egress = [] ∧ ∀ b : Fin 5, x.berths[b].status = .free

end Sys2Proof.Claims

/-- R231 to R233 and R235: an unassigned command has ERR 4, and a command in the wrong state ERR 1; ALLOT claims the spurs of the bitmap and
starts the scrub, which leaves the tiles empty and the job READY; START of good tables copies the image with SVEC and SSAVE to every tile
and leaves the job RUNNING; END discards the job's work, and the job reaches FREE. -/
def Obligations.JobLifetime : Prop :=
  (∀ s v, Up s → s.jtsel ≠ 0 → v.toNat < 2 ^ 24 → let c := v.toNat % 16
    let sc := v.toNat / 16 % 8
    c = 0 ∨ 6 ≤ c ∨ ((c = 3 ∨ c = 4) ∧ (sc = 0 ∨ 5 ≤ sc)) → Refused (.jtcmdUnassigned v) s s.jtsel.toNat 4) ∧
  (∀ s v, Up s → s.jtsel ≠ 0 → v.toNat < 2 ^ 24 → v.toNat % 16 = 2 → let x := s.job s.jtsel.toNat
    x.busy = true ∨ x.st = .scrubbing ∨ x.st = .gating ∨ x.st = .ending → Refused (.start v) s s.jtsel.toNat 1) ∧
  (∀ s v j, Commands s v 1 j → (s.job j).st ≠ .free → Refused (.allot v) s j 1) ∧
  (∀ s v j, Commands s v 1 j → (s.job j).st = .free → populatedRun (s.job j).allot.toNat 512 = true →
    let chosen (p : Nat) : Prop := p < 4096 ∧ (s.byte ((s.job j).allot.toNat + p / 8)).getLsbD (p % 8) = true
    (∀ p, chosen p → (s.spur p).job = 0) →
    ∃ t : State, Becomes (.allot v) s t ∧ (t.job j).st = .scrubbing ∧ (t.job j).scrub = true ∧ (t.job j).inc = (s.job j).inc + 1 ∧ (t.job j).cmd = v ∧ t.mem = s.mem ∧
      (∀ p, chosen p → (t.spur p).job = s.jtsel) ∧ (∀ p, ¬chosen p → t.spur p = s.spur p) ∧
      ∀ n ∈ t.tilesOf j, (t.tile n).job = s.jtsel ∧ (t.tile n).powered = !(s.tile n).retired) ∧
  (∀ s j, s.stuck = none → (s.job j).st = .scrubbing →
    ∃ t : State, Becomes (.scrubDone j) s t ∧ (t.job j).st = .ready ∧
      (∀ n ∈ s.tilesOf j, t.tile n = { powered := !(s.tile n).retired, retired := (s.tile n).retired, job := (s.tile n).job }) ∧
      ∀ n, n ∉ s.tilesOf j → t.tile n = s.tile n) ∧
  (∀ s v j q, Commands s v 2 j → (s.job j).st = .ready → s.rdTables j = .ok q → q.roots = [] → q.reds = [] →
    let x := s.job j
    let at0 := x.ilen.toNat % 2 ^ 19
    let len := min (x.ilen.toNat / 2 ^ 19) (padSize - at0)
    (len ≠ 0 → populatedRun x.img.toNat len = true) →
    ∃ t : State, Becomes (.start v) s t ∧ (t.job j).st = .running ∧ (t.job j).tmpls = q.tmpls ∧ (t.job j).slist = q.slist ∧
      (t.job j).gen = s.gen ∧ t.mem = s.mem ∧
      ∀ n ∈ s.tilesOf j, (s.tile n).retired = false → (t.tile n).svec = x.sup.setWidth 19 ∧ (t.tile n).ssave = x.sup.extractLsb' 19 19 ∧
        (∀ k < len, t.padByte n (at0 + k) = s.byte (x.img.toNat + k)) ∧
        ∀ k, (k < at0 ∨ at0 + len ≤ k) → t.padByte n k = s.padByte n k) ∧
  (∀ s v j, Commands s v 2 j → (s.job j).st = .ready → s.rdTables j = .error .bad → Refused (.start v) s j 3) ∧
  (∀ s v j, Commands s v 5 j → (s.job j).st = .ready ∨ (s.job j).st = .running ∨ (s.job j).st = .gated →
    ∃ t : State, Becomes (.jobEnd v) s t ∧ (t.job j).st = .ending ∧ t.packets = s.packets.filter (fun p => p.job != s.jtsel) ∧
      (∀ n ∈ s.tilesOf j, (t.tile n).frames = [] ∧ (t.tile n).qMatrix = [] ∧ (t.tile n).qEgress = [] ∧ (t.tile n).subs = [] ∧
        (t.tile n).pad = (s.tile n).pad ∧ ∀ b, (t.berth n b).status = .free ∧ ∀ m, ((t.berth n b).hd m).st = .killed) ∧
      ∀ n, n ∉ s.tilesOf j → t.tile n = s.tile n) ∧
  ∀ s j, s.stuck = none → (s.job j).st = .ending →
    ∃ t : State, Becomes (.endDone j) s t ∧ (t.job j).st = .free ∧ (t.job j).tmpls = [] ∧
      (∀ n ∈ s.tilesOf j, t.tile n = { retired := (s.tile n).retired }) ∧ ∀ p ∈ s.spursOf j, (t.spur p).job = 0

/-- R232, R295, R346 and R367 to R370: GATE stops the berths and macros of its unit; once they have stopped the drain begins; a sweep of the
quiescence tree counts when the unit is empty; the save writes a block for each tile, valid unless its
storage holds an uncorrectable word, and once the releases after it have been performed the unit is gated; RESUME restores the tiles from
their blocks, and with JTMOVE.V restores a block on another tile. -/
def Obligations.GateAndResume : Prop :=
  (∀ s v j, Commands s v 3 j → (s.job j).st = .running → unitNamed s v j → let sc := v.toNat / 16 % 8
    ∃ t : State, Becomes (.gate v) s t ∧ (t.job j).busy = true ∧ (t.job j).st = (if sc = 4 then .gating else .running) ∧
      (t.job j).unit = some { scope := BitVec.ofNat 3 sc, tgt := BitVec.ofNat 17 (v.toNat / 128), empty := 0 } ∧
      ∀ n ∈ s.tilesOf j, inUnit sc (v.toNat / 128) n = true → (s.tile n).powered = true → (s.tile n).gate = .idle →
        (t.tile n).gate = .stopping ∧ (t.tile n).pad = (s.tile n).pad ∧
        ∀ b m, ((t.berth n b).hd m).active = false ∧ (t.berth n b).g = (s.berth n b).g) ∧
  (∀ s v j, Commands s v 3 j → (s.job j).st ≠ .running → Refused (.gate v) s j 1) ∧
  (∀ s v j, Commands s v 3 j → (s.job j).st = .running → ¬unitNamed s v j → Refused (.gate v) s j 5) ∧
  (∀ s j u, s.stuck = none → (s.job j).unit = some u → let ts := s.inPhase j u .stopping
    (∀ n ∈ ts, (s.tile n).settled = true) → ∃ t : State, Becomes (.gateStopped j) s t ∧
      (∀ n ∈ ts, t.tile n = { s.tile n with gate := .draining }) ∧ (∀ n, n ∉ ts → t.tile n = s.tile n) ∧ t.jobs = s.jobs) ∧
  (∀ s j x, Up s → s.jobs = [(j, x)] → ∃ t : State, Becomes .quiescenceSweep s t ∧ (t.job j).idle = s.isIdle j ∧ t.tiles = s.tiles ∧
    t.packets = s.packets ∧ (x.unit = none → (t.job j).unit = none) ∧
    ∀ u, x.unit = some u → let mine (n : Nat) : Bool := inUnit u.scope.toNat u.tgt.toNat n && (s.tile n).job.toNat == j
      let n := if s.inPhase j u .stopping = [] ∧ s.unquiet j mine false = false then u.empty + 1 else 0
      (t.job j).unit = some { u with empty := n }) ∧
  (∀ s j u n, s.stuck = none → (s.job j).unit = some u → 2 ≤ u.empty → s.inPhase j u .stopping = [] → s.inPhase j u .draining = [n] →
    (s.tile n).fills = [] → (∀ b, (s.berth n b).landing.length ≤ 64) → populatedRun (s.blockAddr j n) 0x50000 = true → Apart s →
    ∃ t : State, Becomes (.gateSaveDone j) s t ∧ (t.tile n).gate = .saving ∧ (t.job j).busy = (s.job j).busy ∧
      (∃ q, (t.job j).blocks = (s.job j).blocks ++ [q] ∧ q.tile = BitVec.ofNat 17 n) ∧
      ((t.pw (s.blockAddr j n)).getLsbD 33 = true ↔ (s.tile n).badSave = false) ∧
      ((t.pw (s.blockAddr j n)).getLsbD 34 = true ↔ (s.tile n).faulted = true) ∧
      t.pw (s.blockAddr j n + 8) = (s.tile n).bank.t.setWidth 64 ∧ (t.tile n).pad = (s.tile n).pad ∧
      (t.tile n).ops.length = (s.tile n).ops.length + 5 ∧
      ∀ a, (a < s.blockAddr j n ∨ s.blockAddr j n + 0x50000 ≤ a) → t.byte a = s.byte a) ∧
  (∀ s j u, s.stuck = none → (s.job j).unit = some u → s.inPhase j u .stopping = [] → s.inPhase j u .draining = [] →
    let ts := s.inPhase j u .saving
    (∀ n ∈ ts, (s.tile n).ops = [] ∧ (s.tile n).wb = [] ∧ (s.tile n).misses = [] ∧ (s.tile n).fetches = []) →
    ∃ t : State, Becomes (.gateSaveDone j) s t ∧ (∀ n ∈ ts, t.tile n = { s.tile n with gate := .gated }) ∧ (∀ n, n ∉ ts → t.tile n = s.tile n) ∧
      (t.job j).busy = false ∧ (t.job j).unit = none ∧ (t.job j).st = (if u.scope = 4 then .gated else (s.job j).st) ∧ t.mem = s.mem) ∧
  (∀ s v j, Commands s v 4 j → s.resumable (s.job j) j = true → unitNamed s v j → ¬(v.toNat / 16 % 8 = 1 ∧ (s.job j).move.getLsbD 17 = true) →
    let ts := s.savedTiles j (v.toNat / 16 % 8) (v.toNat / 128)
    (∀ n ∈ ts, s.blockValid j n = true ∧ Resting (s.tile n)) → (v.toNat / 16 % 8 = 4 ∨ (s.tile (v.toNat / 128)).faulted = false) →
    ∃ t : State, Becomes (.resume v) s t ∧ (t.job j).st = .running ∧
      (∀ n ∈ ts, let x := (s.tile n).ofBlock (s.blockBytes j n)
        (t.tile n).gate = .idle ∧ (t.tile n).bank = x.bank ∧ (∀ f, (t.tile n).frame f = x.frame f) ∧
          (t.tile n).chains = (s.tile n).chains ∧ (t.tile n).pad = (s.tile n).pad ∧
          ∀ k < 40960, (t.tile n).padByte (frameBase + k) = x.padByte (frameBase + k)) ∧
      (∀ n, n ∉ ts → t.tile n = s.tile n) ∧ ∀ q ∈ (t.job j).blocks, q.tile.toNat ∉ ts) ∧
  (∀ s v j q, Commands s v 4 j → s.resumable (s.job j) j = true → v.toNat / 16 % 8 = 1 → (s.job j).move.getLsbD 17 = true →
    let new := v.toNat / 128
    let old := (s.job j).move.toNat % 2 ^ 17
    new ≠ old → new ∈ s.tilesOf j → old ∈ s.tilesOf j → (s.job j).blocks.find? (fun q => q.tile.toNat == old) = some q →
    s.blockValid j old = true → (s.tile new).faulted = false → (s.tile new).liveFrames = [] → Resting (s.tile new) → (s.tile new).moved = [] →
    let x := q.saved.ofBlock (s.blockBytes j old)
    x.liveFrames = [] → Resting x →
    ∃ t : State, Becomes (.resumeMove v) s t ∧ (t.job j).st = .running ∧ (t.job j).move.getLsbD 17 = false ∧
      (t.tile new).bank = x.bank ∧ (t.tile new).chains = q.saved.chains ∧ (t.tile new).streams = q.saved.streams ∧
      (t.tile new).pad = (s.tile new).pad ∧ (t.tile old).pad = [] ∧ ∀ k ∈ (t.job j).blocks, k.tile.toNat ≠ old)

/-- R200, R272, R361 and R375: RETIRE powers a tile off for good and logs it, and refuses one that works; GENADV gives every router the new
generation, has what stands at a router checked again, and has every tile of a running or gated job refresh its tables; JTGEN takes the value
once the job's own tiles have, and BUSY clears when all have. -/
def Obligations.RetireAndAdvance : Prop :=
  (∀ s v, Up s → Unposted s → let n := v.toNat
    n < 2 ^ 17 → n % 2048 < 1088 → s.retireBusy = false → (s.tile n).retired = false → s.occupied n = false →
    ∃ t : State, Becomes (.retire v) s t ∧ t.resp = .ok ∧ (t.tile n).retired = true ∧ (t.tile n).powered = false ∧ (t.tile n).pad = [] ∧
      t.retireBusy = (s.field (n / 2048)).powered ∧ (t.field (n / 2048)).sweep = true ∧
      (n % 2048 < 1024 → (t.router n).dead = true) ∧ (s.cairn.log.length < 1024 → v.setWidth 17 ∈ t.cairn.log) ∧
      ((s.spur (spurOf n)).sectors = [] → t.mem = s.mem)) ∧
  (∀ s v, Up s → v.toNat < 2 ^ 17 → v.toNat % 2048 < 1088 → (s.retireBusy = true ∨ ((s.tile v.toNat).retired = false ∧ s.occupied v.toNat = true)) →
    Denied (.retire v) s) ∧
  (∀ s v, Up s → s.genBusy = false → v = (s.gen + 1).setWidth 64 →
    Becomes (.genadv v) s { s with
      resp := .ok, gen := s.gen + 1, genBusy := true,
      routers := s.routers.map fun kx => (kx.1, { kx.2 with gen := s.gen + 1, nmt := [], counted := [] }),
      packets := s.packets.filterMap Packet.recheck,
      refresh := (s.tiles.map fun kx => kx.1).filter fun n =>
        (s.tile n).powered && !(s.tile n).retired && ((s.jobOf n).st == .running || (s.jobOf n).st == .gating || (s.jobOf n).st == .gated) }) ∧
  (∀ (p : Packet), (p.mt.isSome = true → p.recheck = some p) ∧ (p.mt = none → p.fed = none →
    (∀ r, p.place = .router r ∨ p.place = .summit r → p.recheck = some { p with place := .router r, want := [], routed := false }) ∧
    ∀ n, p.place = .tile n → p.recheck = some p)) ∧
  (∀ s v, Up s → (s.genBusy = true ∨ v.setWidth 8 ≠ s.gen + 1) → Denied (.genadv v) s) ∧
  (∀ s n tm sl, s.stuck = none → s.genBusy = true → n ∈ s.refresh → s.refreshes n = true → let j := (s.tile n).job.toNat
    s.rdRefresh j = .ok (tm, sl) → (s.tile n).gate = .gated ∨ ((s.tile n).subs = [] ∧ (s.tile n).egress = []) →
    ∃ t : State, Becomes (.tableRefresh n) s t ∧ t.refresh = s.refresh.filter (fun u => u != n) ∧ (t.job j).tmpls = tm ∧ (t.job j).slist = sl ∧
      ((∀ u ∈ s.refresh, u ≠ n → s.refreshes u = false ∨ (s.tile u).job ≠ (s.tile n).job) → (t.job j).gen = s.gen) ∧
      t.packets = s.packets ∧ t.mem = s.mem ∧ ∀ p, ∀ r ∈ (t.spur p).retained, r ∈ (s.spur p).retained ∧ (r.job.toNat = j → r.summit ∈ sl)) ∧
  ∀ s, s.stuck = none → s.genBusy = true → (∀ n ∈ s.refresh, s.refreshes n = false) → s.reductions = [] →
    Becomes .genadvDone s { s with
      genBusy := false, refresh := [],
      jobs := s.jobs.map fun kx => (kx.1, if kx.2.st = .free then kx.2 else { kx.2 with gen := s.gen }) }

namespace Sys2Proof.Claims
open Sys2Proof.Machine

/-! ### The parts of a tile that act on their own (R39, R122, R167 to R172, R201, R236 to R248, R265, R330 to R341, R350 to R352, R364) -/

/-- A packet as a tile injects it (R251, R266, R273, R420). -/
def stampedBy (s : State) (n : Nat) (p : Packet) : Packet :=
  { p with job := (s.tile n).job, gen := (s.router (hostTile n)).gen, orig := BitVec.ofNat 17 n, omod := s.modid,
           oseq := (s.tile n).oseq, place := .router (hostTile n), inp := .l, want := [], routed := false, detour := false, path := [] }

/-- A whole packet of a type at a tile that takes packets, of the tile's job and not applied before (R265, R266). -/
structure Arrives (s : State) (k n : Nat) (p : Packet) (typ : BitVec 4) : Prop where
  up : s.stuck = none
  listed : s.packets[k]? = some p
  place : p.place = .tile n
  runs : s.framesRun n = true
  typ : p.typ = typ ∧ p.mt = none
  whole : p.corrupt = false ∧ p.poison = false ∧ p.left = 0
  job : p.job = (s.tile n).job
  fresh : p.ident ∉ (s.tile n).seen

/-- The packet has been taken in and acknowledged: an ACK with its OSEQ is on its way to its origin, and its identity is kept (R266). -/
def TakenIn (s t : State) (k n : Nat) (p : Packet) : Prop :=
  (∃ a more, t.packets = s.packets.eraseIdx k ++ a :: more ∧ a.typ = 12 ∧ a.aux = p.oseq ∧ a.dest = p.orig ∧ a.dmod = p.omod ∧
    a.status = 0) ∧ p.ident ∈ (t.tile n).seen

/-- The macro or fence of an identity runs on handle `m` of berth `b`. -/
def Carries (s : State) (n u : Nat) (b : Fin 5) (m : MReg) (h : Handle) : Prop :=
  s.flight n u = some { b, m := some m, h, who := s.issuer n b } ∧ h = (s.berth n b).hd m

/-- The handle after one more element: PROG one higher, and DONE with the last one (R170, R171). -/
def oneMore (h : Handle) : Handle :=
  { h with prog := h.prog + 1, st := if h.prog + 1 = h.total then .done else h.st }

/-- The frame that a template's creation leaves, with no token (R237, R238). -/
def newFrame (s : State) (n : Nat) (m : Tmpl) (tidx : BitVec 16) (tag : BitVec 32) : Frame :=
  { st := .wait, ecls := m.ecls, urg := m.urg, tidx, tag, nslot := m.nslot.setWidth 5, req := m.req,
    ip := m.entry.setWidth 19 + (s.jobOf n).ilen.setWidth 19 }

/-- A template with no subscription that awaits some slot, and a frame free for it at once (R238). -/
structure Creates (s : State) (n : Nat) (tidx : BitVec 16) (m : Tmpl) (f : Nat) : Prop where
  template : s.tmpl n tidx = some m
  plain : m.subs = [] ∧ m.req ≠ 0
  room : (s.tile n).spawns = [] ∧ (s.tile n).freeFrame = some f

/-- The chain after an emission (R121, R122): TAG's iteration, CEMIT and the indices have advanced; RUN ends with the last one. -/
structure Stepped (c d : Chain) : Prop where
  tag : d.ctag = (c.ctag.extractLsb' 20 12) ++ (c.ctag.setWidth 20 + 1#20)
  count : d.cemit = c.cemit + 1
  last : d.run = (c.run && !((List.range 4).all fun k => c.lastAt k))
  rest : { d with ctag := c.ctag, cemit := c.cemit, cpos := c.cpos, run := c.run, done := c.done, paused := c.paused } = c

end Sys2Proof.Claims

/-- R241 to R245, R350, R351 and R352: a trapped berth whose results and accesses have ended is saved with its registers, its frame SAVED;
the supervisor enters at SVEC for the oldest trapped berth; the frame engine binds a ready token to the lowest-numbered free berth,
urgent and aged ones first. -/
def Obligations.BerthEvents : Prop :=
  (∀ (s : State) n (b : Fin 5), s.stuck = none → s.tileLive n = true → (s.tile n).faulted = false → (s.tile n).stopped = false →
    (s.tile n).halted = false → b ≠ 4 → (s.berth n b).status = .trapSaving → (∀ o ∈ (s.tile n).ops, ¬(o.b = b ∧ o.mac = none)) →
    (∀ e ∈ (s.berth n b).landing, e.wait = .here) → let a := (s.tile n).ssave.toNat + 0x4400 * b.val
    a + 0x4400 ≤ frameBase → (s.berth n b).landing.length ≤ 64 →
    ∃ t : State, Becomes (.berthSave n b) s t ∧ t.berth n b = { s.berth n b with status := .trapped } ∧
      ((t.tile n).frame (s.berth n b).frame.toNat).st = .saved ∧
      (∀ i : GReg, numberOf (fun k => t.padByte n (a + 8 * i.toNat + k)) 8 = ((s.berth n b).rg i).toNat) ∧
      (numberOf (fun k => t.padByte n (a + 0x280 + k)) 8 = (s.berth n b).ip.toNat % 2 ^ 19) ∧
      (∀ k, (k < a ∨ a + 0x4400 ≤ k) → t.padByte n k = s.padByte n k) ∧ t.mem = s.mem) ∧
  (∀ (s : State) n (b : Fin 5) bs r, s.stuck = none → s.coreRuns n = true → (s.tile n).trapQ = b :: bs → (s.tile n).handling = none → b ≠ 4 →
    (s.berth n b).trap = some r → (s.berth n b).status = .trapped → ∃ t : State, Becomes (.supervisorEntry n) s t ∧
      (t.tile n).trapQ = bs ∧ (t.tile n).handling = some b ∧ (t.tile n).scause = r.scause ∧ (t.tile n).sbad = r.bad ∧
      (t.tile n).sdet = r.det ∧ (t.tile n).sberth.setWidth 3 = BitVec.ofNat 3 b.val ∧ (t.berth n 4).status = .bound ∧
      (t.berth n 4).ip = BitVec.ofNat 64 (wbase + (s.tile n).svec.toNat) ∧ (t.berth n 4).g = (s.berth n 4).g ∧
      t.berth n b = s.berth n b ∧ t.mem = s.mem) ∧
  (∀ (s : State) n f, s.selectToken n = some f → let x := s.tile n
    let waiting (g : Nat) : Prop := g < 256 ∧ (x.frame g).st = .ready ∧ s.deferred n (x.frame g) = false
    let rank (g : Nat) : Nat := if (x.frame g).age = 32 then 0 else if (x.frame g).urg then 1 else 2
    let key (g : Nat) : Nat := (x.frame g).tag.toNat * 256 + g
    waiting f ∧ ∀ g, waiting g → rank f < rank g ∨ (rank f = rank g ∧ key f ≤ key g)) ∧
  ∀ (s : State) n (b : Fin 5) f, s.stuck = none → s.framesRun n = true → (s.tile n).gate = .idle → b ≠ 4 → (s.berth n b).status = .free →
    (∀ c, c < b → (s.berth n c).status ≠ .free) → s.selectToken n = some f → (∀ k < 4, ((s.tile n).bpA.getD k 0).getLsbD 63 = false) →
    let y := (s.tile n).frame f
    ∃ t : State, Becomes (.tokenSelection n) s t ∧ (t.berth n b).status = .bound ∧ (t.berth n b).tag = y.tag ∧ (t.berth n b).frame = BitVec.ofNat 8 f ∧
      (t.berth n b).ip = BitVec.ofNat 64 (wbase + y.ip.toNat) ∧ (∀ r, (t.berth n b).rg r = 0) ∧ ((t.tile n).frame f).st = .bound ∧
      (∀ c, c ≠ b → t.berth n c = s.berth n c) ∧ t.mem = s.mem ∧ (t.tile n).pad = (s.tile n).pad

/-- R171, R181, R186, R188 and R201: an engine starts the macro at the head of its queue; an element of TZ clears one row of its z tile, an
element of SETM stores the pattern's bytes; PROG counts them, and the last one leaves the handle DONE; the egress engine injects a copied
message as a PUB packet to the name's summit. -/
def Obligations.EngineEvents : Prop :=
  (∀ (s : State) n q u r b m h, s.stuck = none → s.enginesRun n = true → (s.tile n).queue (Machine.Queue.num q) = .mac u :: r → Carries s n u b m h → h.st = .queued →
    (s.tile n).owes b h.entered = false →
    Becomes (.macroStart n q) s (s.setBerth n b ((s.berth n b).setHd m { h with st := .running }))) ∧
  (∀ (s : State) n q u r b m h, s.stuck = none → s.enginesRun n = true → (s.tile n).queue (Machine.Queue.num q) = .mac u :: r → Carries s n u b m h → h.st = .running →
    h.op = 6 → h.prog.toNat < 32 → h.prog ≠ h.total → (∀ o ∈ (s.tile n).ops, o.mac ≠ some u) → let row (y : Berth) (z : BitVec 2) (i : Nat) : BitVec 512 := y.z[z.toFin].extractLsb' (512 * i) 512
    let z : BitVec 2 := h.desc.extractLsb' 34 2
    ∃ t : State, Becomes (.macroElement n q) s t ∧ (t.berth n b).hd m = oneMore h ∧ row (t.berth n b) z h.prog.toNat = 0 ∧
      (∀ w i, i < 32 → ¬(w = z ∧ i = h.prog.toNat) → row (t.berth n b) w i = row (s.berth n b) w i) ∧
      (t.berth n b).g = (s.berth n b).g ∧ (t.tile n).pad = (s.tile n).pad ∧ t.mem = s.mem) ∧
  (∀ (s : State) n q u r b m h off, s.stuck = none → s.enginesRun n = true → (s.tile n).queue (Machine.Queue.num q) = .mac u :: r → Carries s n u b m h →
    h.st = .running → h.op = 12 → h.variant = 3 → h.prog ≠ h.total → (∀ o ∈ (s.tile n).ops, o.mac ≠ some u) → (h.desc.extractLsb' 64 64 + 8 * h.prog.setWidth 64 : Word).toNat = wbase + off → off % 8 = 0 →
    off + 8 ≤ frameBase → (s.tile n).marks = [] → (∀ k < 8, (s.jobOf n).watchHit false (off + k) 1 = none) →
    ∃ t : State, Becomes (.macroElement n q) s t ∧ (t.berth n b).hd m = oneMore h ∧
      (∀ k < 8, t.padByte n (off + k) = h.aux.extractLsb' (64 + 8 * k) 8) ∧ (∀ a, (a < off ∨ off + 8 ≤ a) → t.padByte n a = s.padByte n a) ∧
      (t.berth n b).g = (s.berth n b).g ∧ t.mem = s.mem) ∧
  ∀ (s : State) n m bs, s.stuck = none → s.enginesRun n = true → (s.tile n).qEgress = [.msg m] → m.bytes = some bs → m.strm = false →
    let p := stampedBy s n { typ := 0, vc := 2, name := m.name, tag := m.tag, payload := m.head.toList ++ flitsOf (m.len / 32) bs,
                             dest := s.summitOf (s.tile n).job m.name, dmod := s.dmodFor (s.tile n).job m.name true }
    ∃ t : State, Becomes (.egressInject n) s t ∧ t.packets = s.packets ++ [p] ∧ (t.tile n).qEgress = [] ∧
      (t.tile n).egress = (s.tile n).egress ++ [{ pkt := p, resends := 0, who := m.who, inc := (s.jobOf n).inc }] ∧
      (t.tile n).oseq = (s.tile n).oseq + 1 ∧ (t.tile n).berths = (s.tile n).berths ∧ (t.tile n).pad = (s.tile n).pad ∧ t.mem = s.mem

/-- R121, R122, R207, R208, R234 and R237 to R240: a fill writes its slot and its presence bit, and the one that completes the mask makes the
frame ready; a fill of a frame that has fired changes nothing in it; a SPAWN packet creates a frame in the lowest free place and is
acknowledged; a chain's emission goes to the tile that the placement gives, and the chain steps. -/
def Obligations.FrameEvents : Prop :=
  (∀ (s : State) n q qs, s.stuck = none → s.framesRun n = true → (s.tile n).fills = q :: qs → q.kind = .fslot → (s.tile n).moved = [] →
    (s.field (n / 2048)).trbase = 0 → let f := q.frame.toNat
    let y := (s.tile n).frame f
    y.st = .wait → (s.tile n).berthOf f = none → let p := y.pres ||| BitVec.ofNat 16 (2 ^ q.slot.toNat)
    ∃ t : State, Becomes (.frameFill n) s t ∧ (t.tile n).fills = qs ∧ ((t.tile n).frame f).slots = y.slots.set q.slot.toFin q.value ∧
      ((t.tile n).frame f).pres = p ∧ ((t.tile n).frame f).tag = y.tag ∧
      (p &&& y.req ≠ y.req → ((t.tile n).frame f).st = .wait) ∧
      (p &&& y.req = y.req → y.pres &&& y.req ≠ y.req → ((t.tile n).frame f).st = .ready ∧ ((t.tile n).frame f).last = q.slot) ∧
      (∀ g, g ≠ f → (t.tile n).frame g = (s.tile n).frame g) ∧ (t.tile n).pad = (s.tile n).pad ∧ t.mem = s.mem) ∧
  (∀ (s : State) n q qs, s.stuck = none → Unposted s → s.framesRun n = true → (s.tile n).fills = q :: qs → q.kind = .fslot → (s.tile n).moved = [] →
    ((s.tile n).frame q.frame.toNat).st = .ready ∨ ((s.tile n).frame q.frame.toNat).st = .bound →
    ∃ t : State, Becomes (.frameFill n) s t ∧ t.tile n = { s.tile n with fills := qs } ∧ t.mem = s.mem) ∧
  (∀ (s : State) k n p m f, Arrives s k n p 10 → p.payload = [] → Creates s n (p.aux.setWidth 16) m f →
    ∃ t : State, Becomes (.spawnArrival k) s t ∧ TakenIn s t k n p ∧ (t.tile n).frame f = newFrame s n m (p.aux.setWidth 16) p.tag ∧
      (∀ g, g ≠ f → (t.tile n).frame g = (s.tile n).frame g) ∧ (t.tile n).berths = (s.tile n).berths ∧ t.mem = s.mem) ∧
  ∀ (s : State) n (c : BitVec 2) m dest, s.stuck = none → s.framesRun n = true → (s.tile n).gate = .idle → (s.tile n).turn = some c →
    let x := s.tile n
    let h := x.chains[c.toFin]
    s.tmpl n h.ctmpl = some m → m.list ≠ [] → dest = m.list.getD (h.ctag.toNat % 2 ^ 20 % m.list.length) 0 → dest.toNat ≠ n →
    ∃ t : State, Becomes (.chainEmission n c) s t ∧ Stepped h ((t.tile n).chains[c.toFin]) ∧
      t.packets = s.packets ++ [stampedBy s n { typ := 10, vc := 0, tag := h.ctag, aux := h.ctmpl.setWidth 32, dest, dmod := s.modid,
                                                slot := h.islot, payload := [h.token.setWidth 256] }] ∧
      (t.tile n).frames = x.frames ∧ (t.tile n).berths = x.berths ∧ t.mem = s.mem

/-- R265, R266, R327 to R341: an EVENT packet is acknowledged and its event queued, a late one at the current tick; the bank applies the due
event with the least key, which leaves the queue and changes one entry; an accepted claim is counted. -/
def Obligations.EventEvents : Prop :=
  (∀ (s : State) k n p e, Arrives s k n p 9 → nameTens p.name ≠ 0xFFFFFF → let b := (s.tile n).bank
    b.window (nameTens p.name) (nameCol p.name) = some e → b.room false = true → b.late = false →
    ∃ (t : State) (v : Ev), Becomes (.eventArrival k) s t ∧ TakenIn s t k n p ∧ (t.tile n).bank.q = b.q ++ [v] ∧ v.entry = e ∧ v.w = p.aux ∧ v.own = false ∧
      v.ts = (if (b.t - p.tag).toNat < 2 ^ 31 then b.t else p.tag) ∧ (t.tile n).bank.entries = b.entries ∧
      (t.tile n).latev = (if (b.t - p.tag).toNat < 2 ^ 31 then satInc (s.tile n).latev 1 else (s.tile n).latev) ∧ t.mem = s.mem) ∧
  (∀ (s : State) n e, s.stuck = none → s.framesRun n = true → (s.tile n).bank.next = some e → let b := (s.tile n).bank
    let r := applyToEntry s.fresh (b.psetOf (b.entry e.entry.toNat)) (b.entry e.entry.toNat) e.ts e.w
    r.2 = (false, none) → ∃ t : State, Becomes (.eventApply n) s t ∧ (t.tile n).bank.q = b.q.erase e ∧ (t.tile n).bank.entry e.entry.toNat = r.1 ∧
      (∀ i, i ≠ e.entry.toNat → (t.tile n).bank.entry i = b.entry i) ∧ (t.tile n).bank.t = b.t ∧ t.packets = s.packets ∧ t.mem = s.mem) ∧
  (∀ fresh p n ts w, wbit (psetWord p 0) 17 = false → n.ref = false → let thr := toSigned 32 (psetWord p 1).toNat
    let v := (clampPot (leaked p (toSigned 32 n.pot.toNat) (min (ts - n.u).toNat 65535) + toSigned 32 w.toNat)).1
    let r := applyToEntry fresh p n ts w
    r.1.u = ts ∧ r.2.2 = none ∧ (r.2.1 = true ↔ thr ≤ v) ∧ (¬thr ≤ v → r.1.pot = BitVec.ofInt 32 v) ∧
      (thr ≤ v → wbits (psetWord p 2) 1 0 = 0 → r.1.pot = 0 ∧ r.1.fired = true)) ∧
  ∀ (s : State) k n p, Arrives s k n p 9 → nameTens p.name = 0xFFFFFF → nameCol p.name = 1 →
    ∃ t : State, Becomes (.claimAnswerArrival k) s t ∧ TakenIn s t k n p ∧
      (t.tile n).bank = { (s.tile n).bank with ans := satInc (s.tile n).bank.ans 1 } ∧ (t.tile n).pad = (s.tile n).pad ∧ t.mem = s.mem

/-- R364, R372 and R436: a tile fault stops every macro and the core; a tile that loses power loses what it holds and the packets at it. -/
def Obligations.TileFailures : Prop :=
  (∀ (s : State) n c, s.stuck = none → Unposted s → s.tileLive n = true → (s.tile n).faulted = false →
    ∃ t : State, Becomes (.tileFault n c) s t ∧ (t.tile n).faulted = true ∧ t.coreRuns n = false ∧ (t.tile n).detached = [] ∧
      (∀ b m, ((t.berth n b).hd m).active = false ∧ (t.berth n b).g = (s.berth n b).g) ∧ (t.tile n).pad = (s.tile n).pad ∧
      (∀ k, k ≠ n → t.tile k = s.tile k) ∧ t.mem = s.mem) ∧
  (∀ (s : State) n a, s.stuck = none → Unposted s → s.tileLive n = true → (s.tile n).faulted = false →
    ∃ t : State, Becomes (.tileFault n (.poison a)) s t ∧ SMap.get false t.poison a = true) ∧
  ∀ s n, s.stuck = none → s.tileLive n = true →
    ∃ t : State, Becomes (.tilePowerLoss n) s t ∧ (t.tile n).powered = false ∧ (t.tile n).pad = [] ∧ (t.tile n).frames = [] ∧
      (∀ b, (t.berth n b).status = .free) ∧ (∀ p ∈ t.packets, p.place ≠ .tile n) ∧ t.mem = s.mem

namespace Sys2Proof.Claims
open Sys2Proof.Machine

/-! ### Routers, summits, links, Niesk ports, homes and barriers (R219 to R221, R252 to R271, R308 to R317, R379, R384 to R397) -/

/-- A whole packet of a type that a router takes in and goes on with: it is of the router's generation, and of its tile's job where it
enters by the local port (R252, R271, R273). -/
structure Reaches (s : State) (k r : Nat) (p : Packet) (typ : BitVec 4) : Prop where
  up : s.stuck = none
  listed : s.packets[k]? = some p
  place : p.place = .router r
  typ : p.typ = typ ∧ p.mt = none
  fresh : p.routed = false ∧ p.left = 0 ∧ p.void = false
  live : s.routerLive r = true ∧ s.held r p = false
  gen : p.gen = (s.router r).gen
  job : p.inp = .l → p.node = none → p.job = (s.tile p.orig.toNat).job

/-- A packet of a type at the head of its summit's order, not applied before (R259, R266). -/
structure AtSummit (s : State) (k r : Nat) (p : Packet) (typ : BitVec 4) : Prop where
  up : s.stuck = none
  listed : s.packets[k]? = some p
  place : p.place = .summit r
  typ : p.typ = typ ∧ p.mt = none
  live : s.routerLive r = true
  order : s.inOrder r k p = true
  whole : p.poison = false
  fresh : s.seenAt p = false

/-- The ACK of a packet by its summit (R266). -/
def summitAck (s : State) (p : Packet) : Packet :=
  stampedBy s p.dest.toNat { typ := 12, dest := p.orig, dmod := p.omod, rorig := p.rorig, node := p.node, aux := p.oseq, name := p.name }

/-- Packet `a` is an answer to packet `p` with a status (R199). -/
def Answers (a p : Packet) (status : BitVec 4) : Prop :=
  a.typ = 3 ∧ a.status = status ∧ a.aux = p.oseq ∧ a.dest = p.orig ∧ a.dmod = p.omod ∧ a.name = p.name

/-- Walk `k` of a quay, which one tile's request joined, ends at leaf `e` of 2^b bytes (R310, R313). -/
structure WalkEnds (s : State) (q k t : Nat) (tid : BitVec 20) (w : Walk) (m : XMiss) (e : Word) (b : Nat) : Prop where
  up : s.stuck = none
  listed : (s.quay q).walks = [w] ∧ k = 0 ∧ (s.quay q).walkQ = []
  joined : w.joined = [(t, tid, m)]
  leaf : s.walk m.job.toNat (m.vpage * 65536) = .leaf e b

/-- An arrival at a barrier object of the window that its generation accepts, its berth being bound (R220). -/
structure Arriving (s : State) (k : Nat) (a : Arrival) (gen expected arrived : Nat) : Prop where
  up : s.stuck = none
  listed : s.arrivals[k]? = some a
  window : a.win = true ∧ a.pa % 16 = 0 ∧ a.pa + 16 ≤ frameBase
  magic : numberOf (fun j => s.padByte a.t (a.pa + j)) 4 = 0xBA550001
  gen : numberOf (fun j => s.padByte a.t (a.pa + 4 + j)) 4 = gen ∧ gen = a.cap.toNat
  counts : numberOf (fun j => s.padByte a.t (a.pa + 8 + j)) 4 = expected ∧ numberOf (fun j => s.padByte a.t (a.pa + 12 + j)) 4 = arrived
  waits : arrived < expected
  berth : (s.tile a.t).powered = true ∧ (s.jobOf a.t).blocks = [] ∧ (s.berth a.t a.b).bind = a.bind ∧ (s.berth a.t a.b).status = .bound

end Sys2Proof.Claims

/-- R255, R256 and R258: a SUB packet is counted once at the port by which it came, in its pattern's entry or in the lowest free one, and goes
on with its path; an UNSUB packet takes the count away again, and so does a TBLFULL answer on its way back; an entry without counts is free; a
PUB packet on its way down goes to the ports that the table gives it, and one that climbs takes the next port of its
route as well; at its summit it turns down, is acknowledged, and is not applied again. -/
def Obligations.RouterEvents : Prop :=
  (∀ (x : Router) e port i, (∀ y, some y ∈ x.nmt → e.same y = false) → (∀ j < i, x.nmt[j]? ≠ some none) →
    (x.nmt[i]? = some none → Router.install x e port = some { x with nmt := x.nmt.set i (some { e with cnt := e.cnt.set port.num 1 }) }) ∧
    (i = x.nmt.length → i < 256 → Router.install x e port = some { x with nmt := x.nmt ++ [some { e with cnt := e.cnt.set port.num 1 }] }) ∧
    (i = x.nmt.length → i = 256 → Router.install x e port = none)) ∧
  (∀ (x : Router) (e : NmtEnt) port i y, x.nmt[i]? = some (some y) → e.same y = true →
    (∀ j < i, ∀ z, x.nmt[j]? = some (some z) → e.same z = false) → let c := y.cnt.get port.num
    (c.toNat < 63 → Router.install x e port = some { x with nmt := x.nmt.set i (some
      { y with isSummit := y.isSummit || e.isSummit, cnt := y.cnt.set port.num (c + 1) }) }) ∧ (c.toNat = 63 → Router.install x e port = none) ∧
    (1 < c.toNat → Router.uninstall x e port = some { x with nmt := x.nmt.set i (some { y with cnt := y.cnt.set port.num (c - 1) }) }) ∧
    (c.toNat = 1 → (∀ q, q ≠ port → y.cnt.get q.num = 0) → Router.uninstall x e port = some { x with nmt := x.nmt.set i none })) ∧
  (∀ (s : State) (k r : Nat) (p : Packet), Reaches s k r p 1 → p.dmod = s.modid → hostTile p.dest.toNat ≠ r → let on := { p with routed := true, path := (r, p.inp) :: p.path }
    (p.tracked ∈ (s.router r).counted → Becomes (.routerSub k) s (s.setPacket k on)) ∧
    (∀ x, p.tracked ∉ (s.router r).counted → Router.install (s.router r) (p.entry false) p.inp = some x →
      Becomes (.routerSub k) s ((s.setRouter r { x with counted := p.tracked :: x.counted }).setPacket k on))) ∧
  (∀ (s : State) (k r : Nat) (p : Packet), Reaches s k r p 2 → p.dmod = s.modid → hostTile p.dest.toNat ≠ r → let on := { p with routed := true }
    (p.tracked ∈ (s.router r).counted → Becomes (.routerUnsub k) s (s.setPacket k on)) ∧
    (∀ x, p.tracked ∉ (s.router r).counted → Router.uninstall (s.router r) (p.entry false) p.inp = some x →
      Becomes (.routerUnsub k) s ((s.setRouter r { x with counted := p.tracked :: x.counted }).setPacket k on))) ∧
  (∀ (s : State) (k r : Nat) (p : Packet) port rest x, Reaches s k r p 3 → p.path = (r, port) :: rest → p.answered ∈ (s.router r).counted →
    Router.uninstall (s.router r) { p.entry false with summit := p.full.getD p.orig } port = some x →
    Becomes (.routerAnswer k) s ((s.setRouter r { x with counted := x.counted.filter fun i => i != p.answered }).setPacket k
      { p with routed := true, want := [{ port }], path := rest })) ∧
  (∀ (s : State) r (p : Packet) q, q ∈ s.pubPorts r p ↔
    (q = .l ∨ q ≠ p.inp ∨ neighbour r q = none ∨ s.reductionsAt r q p ≠ 0) ∧
    ∃ e, some e ∈ (s.router r).nmt ∧ e.takes p = true ∧ e.cnt.get q.num ≠ 0) ∧
  (∀ (s : State) (k r : Nat) (p : Packet), Reaches s k r p 0 → p.serve = false → p.dmod = s.modid → p.dir = true → s.pubPorts r p ≠ [] →
    Becomes (.routerPub k) s (s.setPacket k { p with routed := true, want := (s.pubPorts r p).map fun port => { port } })) ∧
  (∀ (s : State) (k r : Nat) (p : Packet) port det, Reaches s k r p 0 → p.serve = false → p.dmod = s.modid → p.dir = false → hostTile p.dest.toNat ≠ r →
    s.nextHop r p = some (port, det) → Becomes (.routerPub k) s (s.setPacket k { p with routed := true, want :=
      { port, det } :: (((s.pubPorts r p).filter fun q => q != port).map fun port => { port }) })) ∧
  ∀ (s : State) (k r : Nat) (p : Packet), Reaches s k r p 0 → p.serve = false → p.dmod = s.modid → p.dir = false → hostTile p.dest.toNat = r →
    s.inOrder r k p = true → p.poison = false → s.seenAt p = false → s.keepOf p.job.toNat (nameTens p.name) = 0 →
    ∃ t : State, Becomes (.routerPub k) s t ∧ p.ident ∈ (t.tile p.dest.toNat).seen ∧ t.packets =
      (if s.pubPorts r p = [] then s.packets.eraseIdx k
       else s.packets.set k { p with dir := true, routed := true, want := (s.pubPorts r p).map fun port => { port } })
      ++ [summitAck s p]

/-- R258, R261, R263, R264, R268 and R270: a summit installs or removes a SUB's or UNSUB's pattern, acknowledges it and answers OK, or NOSUB
where no equal pattern stands; a REQ that no retained publication serves sends a FALL to the quay of its name's range; the quay reads the
block and publishes it; a retained publication leaves once its ticks have passed; a GRANT waits for its stream's sender, and an OPEN meets
the grants held for it. -/
def Obligations.SummitEvents : Prop :=
  (∀ (s : State) (k r : Nat) (p : Packet) x, AtSummit s k r p 1 → (s.spur (spurOf p.dest.toNat)).retained = [] → s.remoteOf p.job (nameTens p.name) = none →
    (∀ n, s.rangeQuay p.job n = none) → Router.install (s.router r) (p.entry true) p.inp = some x →
    ∃ (t : State) (a : Packet), Becomes (.summitApply k) s t ∧ t.router r = x ∧ t.packets = s.packets.eraseIdx k ++ [summitAck s p, a] ∧ Answers a p 0 ∧
      p.ident ∈ (t.tile p.dest.toNat).seen ∧ t.mem = s.mem) ∧
  (∀ (s : State) (k r : Nat) (p : Packet) x, AtSummit s k r p 2 → Router.uninstall (s.router r) (p.entry true) p.inp = x →
    ∃ (t : State) (a : Packet), Becomes (.summitApply k) s t ∧ t.router r = x.getD (s.router r) ∧ t.packets = s.packets.eraseIdx k ++ [summitAck s p, a] ∧
      Answers a p (if x.isSome then 0 else 3) ∧ p.ident ∈ (t.tile p.dest.toNat).seen ∧ t.mem = s.mem) ∧
  (∀ (s : State) (k r : Nat) (p : Packet) q, AtSummit s k r p 4 → (s.spur (spurOf p.dest.toNat)).retained = [] → s.remoteOf p.job (nameTens p.name) = none →
    p.row1 = nameRow p.name → p.col1 = nameCol p.name → s.summitOf p.job p.name = p.dest → s.rangeQuay p.job p.name = some q →
    ∃ (t : State) (f : _), Becomes (.summitApply k) s t ∧ t.packets = s.packets.eraseIdx k ++ [summitAck s p, f] ∧ f.typ = 5 ∧ f.name = p.name ∧
      f.tag = p.tag ∧ f.dest = BitVec.ofNat 17 (quayCode q) ∧ f.orig = p.dest ∧ t.router r = s.router r ∧ t.mem = s.mem) ∧
  (∀ (s : State) k q p ent, s.stuck = none → s.packets[k]? = some p → p.place = .quay q → p.typ = 5 → p.poison = false → p.corrupt = false →
    p.mt = none → p.left = 0 → s.gating p.orig.toNat p.job = false →
    p.ident ∉ (s.quay q).seen → (s.quay q).falls = [] → (s.quay q).ranges = [ent] → ent.job = p.job → ent.tens = nameTens p.name →
    ent.row0.toNat ≤ (nameRow p.name).toNat → (nameRow p.name).toNat ≤ ent.row1.toNat → ent.col0.toNat ≤ (nameCol p.name).toNat →
    (nameCol p.name).toNat ≤ ent.col1.toNat →
    ∃ (t : State) (a : Packet), Becomes (.quayFall k) s t ∧ t.packets = s.packets.eraseIdx k ++ [a] ∧ a.typ = 12 ∧ a.aux = p.oseq ∧ a.dest = p.orig ∧
      (t.quay q).falls = [{ job := p.job, name := p.name, tag := p.tag, summit := p.orig, ent }] ∧ p.ident ∈ (t.quay q).seen ∧ t.mem = s.mem) ∧
  (∀ (s : State) q k f e b, s.stuck = none → (s.quay q).falls[k]? = some f → s.gating f.summit.toNat f.job = false →
    let n := f.ent.brows.toNat * f.ent.bcols.toNat * 2 ^ f.ent.esz.toNat
    let va := f.ent.base.toNat + ((nameRow f.name).toNat * f.ent.nbc.toNat + (nameCol f.name).toNat) * n
    0 < n → s.walk f.job.toNat va = .leaf e b → leafRem e = false → va % 2 ^ b + n ≤ 2 ^ b →
    leafBase e + va % 2 ^ b + n ≤ 2 ^ 44 →
    ∃ (t : State) (p : Packet), Becomes (.quayFallPublish q k) s t ∧ t.packets = s.packets ++ [p] ∧ p.typ = 0 ∧ p.name = f.name ∧ p.tag = f.tag ∧ p.job = f.job ∧
      p.dest = f.summit ∧ p.orig = BitVec.ofNat 17 (quayCode q) ∧ p.payload = flitsOf (n / 32) (s.pbytes (leafBase e + va % 2 ^ b) n) ∧
      (t.quay q).falls = (s.quay q).falls.eraseIdx k ∧ t.mem = s.mem) ∧
  (∀ (s : State) sp k x, s.stuck = none → (s.spur sp).retained[k]? = some x → x.keep.toNat ≤ (s.tkcnt - x.tick).toNat →
    Becomes (.retentionExpiry sp k) s (s.setSpur sp { s.spur sp with retained := (s.spur sp).retained.eraseIdx k })) ∧
  (∀ (s : State) (k r : Nat) (p : Packet), AtSummit s k r p 7 → (s.spur (spurOf p.dest.toNat)).streams = [] →
    ∃ t : State, Becomes (.grantAtSummit k) s t ∧ t.packets = s.packets.eraseIdx k ++ [summitAck s p] ∧
      (t.spur (spurOf p.dest.toNat)).streams = [{ job := p.job, name := p.name, summit := p.dest, receiver := some p.orig, sender := none,
                                                   held := p.aux.toNat % 65536 }] ∧ t.mem = s.mem) ∧
  ∀ (s : State) (k r : Nat) (p : Packet) x a, AtSummit s k r p 8 → (s.spur (spurOf p.dest.toNat)).streams = [x] → x.job = p.job → x.name = p.name → x.sender = none →
    x.receiver = some a → ∃ (t : State) (g : Packet), Becomes (.openAtSummit k) s t ∧ t.packets = s.packets.eraseIdx k ++ [summitAck s p, g] ∧
      g.typ = 7 ∧ g.dir = true ∧ g.name = p.name ∧ g.dest = p.orig ∧ g.aux = BitVec.ofNat 32 x.held ∧
      (t.spur (spurOf p.dest.toNat)).streams = [{ x with sender := some p.orig, held := 0 }] ∧ t.mem = s.mem

/-- R199, R200, R202, R203, R205, R265, R266 and R269: a publication's payload is deposited at its subscription's DST, and the fill of its
slot follows once every name has been delivered; a stream's next message goes into the ring; an answer's status lands; a grant adds to the
sender's window; an ACK frees the staged copy; a stale report and a timeout make the origin inject the copy again. -/
def Obligations.IngressEvents : Prop :=
  (∀ (s : State) k n p r v, s.stuck = none → s.packets[k]? = some p → p.place = .tile n → s.framesRun n = true → p.typ = 0 → p.serve = false →
    p.mt = none → p.left = 0 → p.ident ∉ (s.tile n).taken → p.corrupt = false → p.poison = false → p.job = (s.tile n).job → (s.tile n).subs = [r] → r.names = [p.name] → r.holds p.name = true →
    tagMatches r.mode r.tag p.tag = true → r.strm = none → r.held = [] → r.counted = [] → p.payload = [v] → 1 ≤ r.cap.toNat →
    r.dst.toNat + 32 ≤ frameBase → s.depositView n r = .linear → (s.tile n).marks = [] →
    (s.jobOf n).watchHit false r.dst.toNat 32 = none → r.indexOf p.name = 0 →
    ∃ (t : State) (f : _), Becomes (.ingressPacket k) s t ∧ t.packets = s.packets.eraseIdx k ∧
      (∀ j < 32, t.padByte n (r.dst.toNat + j) = v.extractLsb' (8 * j) 8) ∧
      (∀ a, (a < r.dst.toNat ∨ r.dst.toNat + 32 ≤ a) → t.padByte n a = s.padByte n a) ∧
      (t.tile n).fills = (s.tile n).fills ++ [f] ∧ f.frame = r.frame ∧ f.slot = r.slot ∧ f.value = BitVec.ofNat 64 (wbase + r.dst.toNat) ∧
      (t.tile n).berths = (s.tile n).berths ∧ t.mem = s.mem) ∧
  (∀ (s : State) n k r p v, s.stuck = none → s.framesRun n = true → (s.tile n).subs[k]? = some r →
    r.held.find? (fun q => q.sseq == (r.strm.getD (0, 0)).1) = some p → p.payload = [v] → s.depositView n r = .linear →
    (s.tile n).marks = [] → let total := (r.strm.getD (0, 0)).2
    let off := r.dst.toNat + 32 * (total % r.cap.toNat)
    off + 32 ≤ frameBase → (s.jobOf n).watchHit false off 32 = none →
    ∃ (t : State) (f : _), Becomes (.strmDeposit n k) s t ∧ (∀ j < 32, t.padByte n (off + j) = v.extractLsb' (8 * j) 8) ∧
      (∀ a, (a < off ∨ off + 32 ≤ a) → t.padByte n a = s.padByte n a) ∧
      (t.tile n).subs = (s.tile n).subs.set k { r with strm := some ((r.strm.getD (0, 0)).1 + 1, total + 1),
                                                       held := r.held.filter fun q => q.sseq != (r.strm.getD (0, 0)).1 } ∧
      (t.tile n).fills = (s.tile n).fills ++ [f] ∧ f.frame = r.frame ∧ f.slot = r.slot ∧ f.value = BitVec.ofNat 64 (total + 1) ∧ t.mem = s.mem) ∧
  (∀ s k n p o m b bind, Arrives s k n p 3 → p.status = 0 → (s.tile n).subOps = [o] → o.waits = [(m, p.aux)] → o.goal = .berth b bind →
    o.unsub = false → (s.berth n b).bind = bind → ∃ t : State, Becomes (.answerArrival k) s t ∧ TakenIn s t k n p ∧ (t.tile n).subOps = [] ∧
      (t.tile n).subs = (s.tile n).subs ∧ t.mem = s.mem ∧ (t.berth n b).g = (s.berth n b).g ∧
      (t.berth n b).landing = (s.berth n b).landing.map fun e =>
        if e.wait = .answer o.op then { e with data := o.status.setWidth 512, wait := .here } else e) ∧
  (∀ s k n p, Arrives s k n p 7 → ∃ t : State, Becomes (.grantArrival k) s t ∧ TakenIn s t k n p ∧ t.mem = s.mem ∧
    (t.tile n).streams = (s.tile n).streams.map fun (w : StreamTx) =>
      if w.name = p.name then { w with window := min (w.window + p.aux.toNat % 65536) 65535, receiver := some (p.col1.setWidth 17) } else w) ∧
  (∀ (s : State) k n p e, s.stuck = none → s.packets[k]? = some p → p.place = .tile n → s.framesRun n = true → p.corrupt = false →
    p.mt = none → p.left = 0 → p.poison = false → p.job = (s.tile n).job → n < 2 ^ 17 → codeQuay n = none → (s.tile n).egress = [e] → e.pkt.oseq = p.aux →
    (p.typ = 12 → p.status = 0 → ∃ t : State, Becomes (.ackArrival k) s t ∧ t.packets = s.packets.eraseIdx k ∧ (t.tile n).egress = [] ∧
      (t.tile n).pad = (s.tile n).pad ∧ t.mem = s.mem) ∧
    (p.typ = 11 → e.pkt.typ ≠ 1 → e.again = false → e.stopped = false → n ∉ s.refresh → ∃ (t : State) (q : Packet), Becomes (.staleArrival k) s t ∧
      t.packets = s.packets.eraseIdx k ++ [q] ∧ q.oseq = e.pkt.oseq ∧ q.typ = e.pkt.typ ∧ q.gen = (s.router (hostTile n)).gen ∧
      q.payload = e.pkt.payload ∧ (t.tile n).egress = [{ e with again := true }] ∧ t.mem = s.mem)) ∧
  ∀ (s : State) n k e, s.stuck = none → n < 2 ^ 17 → codeQuay n = none → s.tileLive n = true → (s.tile n).egress[k]? = some e → e.stopped = false →
    e.resends < 4 → ∃ (t : State) (q : Packet), Becomes (.resendTimeout n k) s t ∧ t.packets = s.packets ++ [q] ∧ q.oseq = e.pkt.oseq ∧ q.typ = e.pkt.typ ∧
      q.gen = (s.router (hostTile n)).gen ∧ q.payload = e.pkt.payload ∧
      (t.tile n).egress = (s.tile n).egress.set k { e with resends := e.resends + 1 } ∧ t.mem = s.mem

/-- R374, R379, R384 to R386, R392, R393 and R397: a free port grants the packet that asks for it and carries its head flit, and a port that
carries a packet its next flit; a link takes a flit in order and acknowledges it, counts a damaged one and asks again, and its sender
resends; a sweep that finds every tile ends; a Niesk port sends a packet as a frame, takes a frame with its acknowledgement, comes up with its
peer, and dies with what it has staged; a reduction takes a partial of one of its names, and notes one that is not due. -/
def Obligations.LinkEvents : Prop :=
  (∀ (s : State) r p, s.stuck = none → s.routerLive r = true → s.packets = [p] → p.place = .router r → p.routed = true → p.left = 0 →
    p.void = false → p.fed = none → p.mt = none → p.want = [{ port := .l }] → p.typ = 10 → p.vc = 0 → p.node = none →
    0 < (s.field (fieldOf r)).arba.toNat → ∃ t : State, Becomes (.portArbitration r (some .l)) s t ∧ t.mem = s.mem ∧
      t.packets = [{ p with want := [{ port := .l, sent := some 1 }] },
        { p with want := [], routed := false, detour := false, place := .tile p.dest.toNat, left := 2 + p.payload.length, due := 0,
                 fed := some (r, .l), poison := false, corrupt := false }]) ∧
  (∀ (s : State) r p q w i, s.stuck = none → s.routerLive r = true → s.packets = [p, q] → p.place = .router r → p.routed = true →
    p.left = 0 → p.void = false → p.fed = none → p.mt = none → p.want = [w] → w.port = .l → w.sent = some i → i < 3 + p.payload.length →
    p.typ = 10 → p.poison = false → p.corrupt = false → q.place = .tile p.dest.toNat → q.fed = some (r, .l) →
    s.ingressUsed p.dest.toNat + 32 ≤ 32768 → ∃ t : State, Becomes (.portArbitration r (some .l)) s t ∧ t.mem = s.mem ∧ t.packets =
      if i + 1 = 3 + p.payload.length then [{ q with left := q.left - 1, fed := none }]
      else [{ p with want := [{ w with sent := some (i + 1) }] }, { q with left := q.left - 1 }]) ∧
  (∀ av nak ack (f : LinkFlit), let w : LinkWord := { data := f.data, side := sideband av nak ack f }
    w.good = true ∧ w.fseq = f.fseq ∧ w.vc = f.vc ∧ w.ackseq = ack ∧ w.av = av ∧ w.nak = nak) ∧
  (∀ s r p n e f, s.stuck = none → s.senderOf r p = some (n, e) → e.replay[e.next]? = some f →
    let l := ((s.router r).link p).takeAck e.word.2
    (f.fseq = l.expect → ∃ t : State, Becomes (.linkFlitReceive r p none) s t ∧ (t.router r).link p = { l with expect := l.expect + 1, nak := false } ∧
      (t.router n).link p.opposite = { e with next := e.next + 1 } ∧ t.packets = arriveFlit r p false s.packets ∧ t.mem = s.mem) ∧
    (f.fseq ≠ l.expect → ∃ t : State, Becomes (.linkFlitReceive r p none) s t ∧ (t.router r).link p = { l with nak := true } ∧
      t.packets = s.packets ∧ t.mem = s.mem)) ∧
  (∀ s r p n e f (d : BitVec 256) (b : BitVec 34), s.stuck = none → s.senderOf r p = some (n, e) → e.replay[e.next]? = some f →
    LinkWord.good { data := d, side := b } = false → let l := ((s.router r).link p).takeAck { data := d, side := b }
    ∃ t : State, Becomes (.linkFlitReceive r p (some (d, b))) s t ∧ (t.router r).link p = { l with crcerr := satInc l.crcerr 1, nak := true } ∧
      t.packets = s.packets ∧ t.mem = s.mem) ∧
  (∀ s r p n e, s.stuck = none → s.senderOf r p = some (n, e) → let l := (s.router r).link p
    let again (l : LinkEnd) : LinkEnd := { l with resend := satInc l.resend 1, fails := l.fails + 1, next := 0 }
    (e.nak = true → (l.acked e.expect).fails < (s.field (fieldOf r)).nretry.toNat → ∃ t : State, Becomes (.linkNak r p) s t ∧
      (t.router r).link p = again (l.acked e.expect) ∧ (t.router n).link p.opposite = { e with nak := false } ∧ t.packets = s.packets ∧
      t.mem = s.mem) ∧
    (l.replay ≠ [] → l.fails < (s.field (fieldOf r)).nretry.toNat → Becomes (.linkAckTimeout r p) s
      (s.setRouter r ((s.router r).setLink p (again l))))) ∧
  (∀ (s : State) f, s.stuck = none → (s.field f).sweep = true → (s.field f).powered = true → fieldOf s.retire.toNat ≠ f →
    (∀ i < 1088, (s.tile (2048 * f + i)).retired = true ∨ s.enabled (2048 * f + i) = false ∨ hostIndex f i ∈ (s.sweepTrees f).1) →
    Becomes (.reachabilitySweep f) s
      { s.setField f { s.field f with swept := true, tree := (s.sweepTrees f).2, sweep := false } with retireBusy := s.retireBusy }) ∧
  (∀ (s : State) q p, s.stuck = none → s.booted = true → let y := s.quay q
    y.sends = true → y.npreplay = [] → s.packets = [p] → p.place = .niesk q → p.mt = none → p.left = 0 → p.want = [] → p.vc = 0 →
    3 + p.payload.length ≤ 44 → 3 + p.payload.length ≤ y.npcred[0] → 0 < (s.field (quayRim q).1).arba.toNat →
    ∃ (t : State) (f : _), Becomes (.portArbitration q none) s t ∧ t.packets = [] ∧ (t.quay q).npreplay = [f] ∧ f.flits = p.outgoing.toFlits ∧
      f.fseq = y.npfseq ∧ f.dst = y.nppeer ∧ f.etype = y.etype ∧ f.ack = y.npexpect - 1 ∧ f.cred.toNat = min y.npowed[0] 65535 ∧ f.ends = [p] ∧
      (t.quay q).npfseq = y.npfseq + 1 ∧ (t.quay q).npcred[0] = y.npcred[0] - (3 + p.payload.length) ∧ t.mem = s.mem) ∧
  (∀ (s : State) q (fr : NieskFrame), s.stuck = none → s.booted = true → let y := s.quay q
    let n := fr.flits.length
    y.en = true → y.npdead = false → fr.good = true → fr.etype = y.etype → 0 < n → n ≤ 44 →
    (∃ f ∈ y.npreplay, (fr.ack - f.fseq).toNat < 2 ^ 31) →
    let a := { y with nprx := satInc y.nprx (14 + 16 + 32 * n + 4),
                      npreplay := y.npreplay.filter fun (f : NieskTx) => decide (2 ^ 31 ≤ (fr.ack - f.fseq).toNat) }
    (fr.fseq ≠ y.npexpect → Becomes (.nieskFrameReceive q fr) s (s.setQuay q a)) ∧
    (fr.fseq = y.npexpect → let v := fr.vc.toFin
      let fs := y.npflits[v] ++ fr.flits
      takePacket fs = none → Becomes (.nieskFrameReceive q fr) s (s.setQuay q
        { a with npexpect := y.npexpect + 1, npcred := y.npcred.set v (y.npcred[v] + fr.cred.toNat),
                 npowed := y.npowed.set v (y.npowed[v] + n), npflits := y.npflits.set v fs }))) ∧
  (∀ (s : State) q peer, s.stuck = none → s.booted = true → let y := s.quay q
    y.en = true → y.npdead = false →
    Becomes (.nieskPortUp q (some peer)) s (s.setQuay q { y with
      npup := true, peer, npretx := satInc y.npretx y.npreplay.length, nptx := satInc y.nptx y.replayUsed }) ∧
    Becomes (.nieskPortUp q none) s (s.setQuay q { y with npup := false })) ∧
  (∀ (s : State) q, s.stuck = none → Unposted s → s.booted = true → (∀ p ∈ s.packets, p.place ≠ .niesk q) → let y := s.quay q
    y.en = true → y.npdead = false →
    (y.npreplay ≠ [] → (∀ f ∈ y.npreplay, f.ends = []) → ∃ t : State, Becomes (.nieskPortDead q) s t ∧
      t.quay q = { y with npdead := true, npup := false, npreplay := [] } ∧ t.packets = s.packets ∧ t.mem = s.mem) ∧
    (∀ f p, y.npreplay = [f] → f.ends = [p] → p.bare = false → ∃ (t : State) (a : Packet), Becomes (.nieskPortDead q) s t ∧ (t.quay q).npdead = true ∧
      t.packets = s.packets ++ [a] ∧ a.typ = 12 ∧ a.status = 1 ∧ a.aux = p.oseq ∧ a.dest = p.orig ∧ t.mem = s.mem)) ∧
  ∀ (s : State) k n p x i, s.stuck = none → s.packets[k]? = some p → p.place = .node n → p.typ = 0 → p.serve = false → p.corrupt = false →
    p.mt = none → p.left = 0 → p.poison = false → s.nodeRoom n p = true → p.ident ∉ (s.node n).seen → s.reductionsOf n = [(i, x)] →
    x.takes p.job p.name = true →
    let it := (tagIter p.tag).toNat
    let due := tagCtx p.tag = x.ctx ∧ x.iter0.toNat ≤ it ∧ it ≤ x.iter1.toNat ∧ p.omod ∈ x.mlist
    (¬due → ∃ t : State, Becomes (.partialArrival k) s t ∧ t.packets = s.packets.eraseIdx k ∧ t.reductions = s.reductions.set i { x with extra := true } ∧
      t.mem = s.mem) ∧
    (due → x.of p.name = [] → 0 < x.nper.toNat → 1 < x.expected →
      ∃ t : State, Becomes (.partialArrival k) s t ∧ t.packets = s.packets.eraseIdx k ∧ t.mem = s.mem ∧ t.reductions = s.reductions.set i
        { x with parts := x.parts ++ [{ name := p.name, tag := p.tag, omod := p.omod, ltn := p.rorig.getD p.orig, payload := p.payload }],
                 npart := x.npart + 1 })

namespace Sys2Proof.Claims
open Sys2Proof.Machine

/-! ### Memory transactions (R39, R133, R139, R281, R283, R284, R307 to R309, R377, R381) -/

/-- A whole memory transaction of this module at a quay that may perform it (R308, R382). -/
structure AtQuay (s : State) (k q : Nat) (p : Packet) (m : MemTx) (kind : BitVec 4) : Prop where
  up : s.stuck = none
  listed : s.packets[k]? = some p
  place : p.place = .quay q ∧ p.left = 0
  carries : p.mt = some m
  kind : m.mkind = kind
  turn : s.mayServe k q p m = true

/-- A home's answer `r` to request `p`, the last of its packets (R281, R308, R381). -/
def Answered (s t : State) (k q : Nat) (p r : Packet) (m a : MemTx) : Prop :=
  (m.baseDie = false → Becomes (.homeAccess (.queued k)) s t) ∧ (m.baseDie = true → Becomes (.baseDieAlu k) s t) ∧
  t.packets = (s.takeRequest k q).packets ++ [r] ∧ r.dest = p.orig ∧ r.job = p.job ∧ r.vc = p.vc ∧ r.mt = some { a with tid := m.tid }

/-- The one outstanding operation of a tile, which waits to start, as its translation places it (R39, R284). -/
structure Pending (s : State) (n : Nat) (o o' : MemOp) : Prop where
  up : s.stuck = none
  live : s.tileLive n = true
  alone : (s.tile n).ops = [o]
  waiting : o.phase = .waiting ∧ (s.tile n).uncopied o = false
  located : s.located n o = .ok o'
  slot : o'.mac = none ∧ o'.off = 0 ∧ (s.berth n o'.b).bind = o'.bind ∧ o'.same o' = o.same o'

/-- An access of at most a sector's bytes of global memory through the caches or past them (R133). -/
def Global (o : MemOp) : Prop := o.win = false ∧ o.rel = none ∧ o.acq = none ∧ 0 < o.n ∧ o.key % 32 + o.n ≤ 32

/-- The bytes of an access within a sector's data, as a number. -/
def dataOf (d : BitVec 256) (o : MemOp) : Nat := numberOf (fun j => d.extractLsb' (8 * (o.key % 32 + j)) 8) o.n

/-- The landing entry of an access whose value has come (R39, R135). -/
def come (l : Landing) (signed : Bool) (n x : Nat) : Landing := { l with wait := .here, data := resultOf signed n x }

/-- A whole response that has reached a tile in power (R39, R381). -/
structure Comes (s : State) (k n : Nat) (p : Packet) (m : MemTx) (kind : BitVec 4) : Prop where
  up : s.stuck = none
  live : (s.field (fieldOf n)).powered = true ∧ s.sliceLive n = true
  listed : s.packets[k]? = some p
  place : p.place = .tile n ∧ p.left = 0
  carries : p.mt = some m
  kind : m.mkind = kind ∧ m.verb = .data

end Sys2Proof.Claims

/-- R39, R133, R139, R141, R280, R281, R283, R307 and R377: an outstanding load finds its bytes in the tile data cache and lands, or asks the slice or the
home for their sector; a store enters the cache, or goes to the home past it; a response fills the cache and lands; the answer of an atomic
lands; an acknowledgement ends a write and a write-back; a slice answers a read that it holds and takes a write; an evicted sector with dirty
bytes is written back; a fence of scope tile ends at once, and one of scope wafer asks every slice to write back; a walk's answer enters the TLB. -/
def Obligations.MemoryOperations : Prop :=
  (∀ (s : State) n o o' l len signed, Pending s n o o' → o'.what = .load → Global o' → bypasses o'.leaf = false → (s.tile n).wb = [] →
    (s.berth n o'.b).landing = [l] → l.wait = .memory o'.id 0 len signed → len = o'.n →
    (∀ c, (s.tile n).tdc = [c] → c.key = o'.key / 32 → (∀ i < o'.n, c.have_.getLsbD (o'.key % 32 + i) = true) →
      s.poisoned o'.key o'.n = false → ∃ t : State, Becomes (.homeAccess (.start n 0)) s t ∧ (t.tile n).ops = [] ∧
        (t.berth n o'.b).landing = [come l signed o'.n (dataOf c.data o')] ∧ t.packets = s.packets ∧ t.mem = s.mem) ∧
    ((s.tile n).tdc = [] → (s.tile n).fetches = [] → ∃ (t : State) (r : Packet), Becomes (.homeAccess (.start n 0)) s t ∧ t.packets = s.packets ++ [r] ∧ r.vc = 1 ∧
      r.dest = s.nextLevel n (o'.key / 32) ∧ r.mt = some { mkind := 0, tid := (s.tile n).nextTid, key := 32 * (o'.key / 32), n := 1,
                                                           un := leafKind o'.leaf == 2 } ∧
      (t.tile n).ops = [{ o' with phase := .sent, waits := [(s.tile n).nextTid], stale := false }] ∧
      (t.berth n o'.b).landing = [l] ∧ t.mem = s.mem)) ∧
  (∀ (s : State) n o o' bs, Pending s n o o' → o'.what = .store bs → bs.length = o'.n → Global o' →
    (bypasses o'.leaf = false → (s.tile n).tdc = [] → ∃ (t : State) (c : Sector), Becomes (.homeAccess (.start n 0)) s t ∧ (t.tile n).ops = [] ∧
      (t.tile n).tdc = [c] ∧ c.key = o'.key / 32 ∧ c.have_ = c.dirty ∧
      (∀ i < 32, c.dirty.getLsbD i = true ↔ o'.key % 32 ≤ i ∧ i < o'.key % 32 + o'.n) ∧
      (∀ j < o'.n, c.data.extractLsb' (8 * (o'.key % 32 + j)) 8 = bs.getD j 0) ∧ t.packets = s.packets ∧ t.mem = s.mem) ∧
    (bypasses o'.leaf = true → ∃ (t : State) (r : Packet) (m : MemTx) (d : BitVec 256), Becomes (.homeAccess (.start n 0)) s t ∧ t.packets = s.packets ++ [r] ∧ r.vc = 1 ∧
      r.dest = s.homeCode o'.key ∧ r.mt = some m ∧ m.mkind = 2 ∧ m.tid = (s.tile n).nextTid ∧ m.key = o'.key ∧ r.payload = [d] ∧
      (∀ i < 32, m.mask.getLsbD i = true ↔ o'.key % 32 ≤ i ∧ i < o'.key % 32 + o'.n) ∧
      (∀ j < o'.n, d.extractLsb' (8 * (o'.key % 32 + j)) 8 = bs.getD j 0) ∧
      (t.tile n).ops = [{ o' with phase := .sent, waits := [(s.tile n).nextTid] }] ∧ t.mem = s.mem)) ∧
  (∀ (s : State) k n p m o l signed d lock, Comes s k n p m 1 → p.payload = [d] → m.locks = [lock] → (s.tile n).ops = [o] →
    o.phase = .sent → o.waits = [m.tid] → o.stale = false → o.what = .load → o.mac = none → o.off = 0 → Global o → (s.tile n).fetches = [] →
    (s.tile n).wb = [] → (s.tile n).tdc = [] → (s.berth n o.b).bind = o.bind → (s.berth n o.b).landing = [l] → l.wait = .memory o.id 0 o.n signed →
    s.poisoned o.key o.n = false → ∃ t : State, Becomes (.resultArrival n .read k) s t ∧ t.packets = s.packets.eraseIdx k ∧ (t.tile n).ops = [] ∧
      (t.berth n o.b).landing = [come l signed o.n (dataOf d o)] ∧ t.mem = s.mem ∧ (t.tile n).tdc = (if bypasses o.leaf then [] else
        [{ key := o.key / 32, data := d, have_ := BitVec.allOnes 32, dirty := 0, lock := some lock, un := leafKind o.leaf == 2 }])) ∧
  (∀ (s : State) k n p m o l signed op x y, Comes s k n p m 5 → (s.tile n).ops = [o] → o.phase = .sent → o.waits = [m.tid] →
    o.what = .rmw op x y → o.mac = none → o.off = 0 → Global o → o.n ≤ 8 → (s.tile n).fetches = [] → (s.berth n o.b).bind = o.bind →
    (s.berth n o.b).landing = [l] → l.wait = .memory o.id 0 o.n signed → s.poisoned o.key o.n = false →
    ∃ t : State, Becomes (.resultArrival n .atomic k) s t ∧ t.packets = s.packets.eraseIdx k ∧ (t.tile n).ops = [] ∧
      (t.berth n o.b).landing = [come l signed o.n (m.value.toNat % 2 ^ (8 * o.n))] ∧ t.mem = s.mem ∧
      ∀ c ∈ (t.tile n).tdc, c.key = o.key / 32 → c.have_ = c.dirty) ∧
  (∀ (s : State) k n p m, Comes s k n p m 3 →
    (∀ w, (s.tile n).wb = [w] → w.tid = m.tid → ∃ t : State, Becomes (.writeAcknowledgement n k) s t ∧ t.packets = s.packets.eraseIdx k ∧
      t.tile n = { s.tile n with wb := [] } ∧ t.mem = s.mem) ∧
    (∀ o bs, (s.tile n).wb = [] → (s.tile n).ops = [o] → o.phase = .sent → o.waits = [m.tid] → o.what = .store bs → o.acq = none →
      ∃ t : State, Becomes (.writeAcknowledgement n k) s t ∧ t.packets = s.packets.eraseIdx k ∧ (t.tile n).ops = [] ∧ t.mem = s.mem)) ∧
  (∀ (s : State) k u p m, Comes s k u p m 0 → m.n = 1 → (s.spur (spurOf u)).wb = [] →
    ∀ c, (s.spur (spurOf u)).sectors = [c] → c.key = m.key / 32 → c.have_ = BitVec.allOnes 32 →
    ∃ (t : State) (r : Packet), Becomes (.homeAccess (.slice k)) s t ∧ t.packets = s.packets.eraseIdx k ++ [r] ∧ r.dest = p.orig ∧ r.vc = p.vc ∧ r.payload = [c.data] ∧
      r.mt = some { mkind := 1, tid := m.tid, key := m.key, n := 1, locks := [c.lock.getD (s.lockAt c.key)] } ∧ t.mem = s.mem) ∧
  (∀ (s : State) k u p m d, Comes s k u p m 2 → p.payload = [d] → (s.spur (spurOf u)).sectors = [] → (s.spur (spurOf u)).retained = [] →
    ∃ (t : State) (r : Packet) (c : Sector), Becomes (.homeAccess (.slice k)) s t ∧ t.packets = s.packets.eraseIdx k ++ [r] ∧ r.dest = p.orig ∧ r.vc = p.vc ∧
      r.mt = some { mkind := 3, tid := m.tid } ∧ (t.spur (spurOf u)).sectors = [c] ∧ c.key = m.key / 32 ∧ c.have_ = m.mask ∧ c.dirty = m.mask ∧
      (∀ i < 32, m.mask.getLsbD i = true → c.data.extractLsb' (8 * i) 8 = d.extractLsb' (8 * i) 8) ∧ t.mem = s.mem) ∧
  (∀ (s : State) n k c, s.stuck = none → s.tileLive n = true → (s.tile n).tdc[k]? = some c → c.dirty ≠ 0 → (s.tile n).leaves c.key = false →
    ∃ (t : State) (r : Packet), Becomes (.homeAccess (.evictTile n k)) s t ∧ (t.tile n).tdc = (s.tile n).tdc.eraseIdx k ∧ t.packets = s.packets ++ [r] ∧
      r.dest = s.nextLevel n c.key ∧ r.payload = [c.data] ∧ r.mt = some { mkind := 2, tid := (s.tile n).nextTid, key := 32 * c.key, n := 1,
                                                                          mask := c.dirty, un := c.un } ∧ t.mem = s.mem) ∧
  (∀ (s : State) n o o', Pending s n o o' → o'.what = .fence → o'.rel = o'.acq → (s.tile n).wb = [] → (s.tile n).tdc = [] →
    (o'.rel = some .tile → ∃ t : State, Becomes (.homeAccess (.start n 0)) s t ∧ (t.tile n).ops = [] ∧ t.packets = s.packets ∧ t.mem = s.mem) ∧
    (o'.rel = some .wafer → s.liveSlices n ≠ [] → ∃ (t : State) (rs : List Packet), Becomes (.homeAccess (.start n 0)) s t ∧ t.packets = s.packets ++ rs ∧
      rs.map (fun r => r.dest) = (s.liveSlices n).map (BitVec.ofNat 17) ∧
      (∀ r ∈ rs, ∃ m, r.mt = some m ∧ m.mkind = 2 ∧ m.verb = .flush true) ∧ (t.tile n).ops.length = 1 ∧ t.mem = s.mem)) ∧
  ∀ (s : State) k n p m z e, s.stuck = none → (s.field (fieldOf n)).powered = true → s.sliceLive n = true → s.packets[k]? = some p →
    p.place = .tile n → p.left = 0 → p.mt = some m → m.mkind = 7 → m.verb = .found (some e) → (s.tile n).misses = [z] → z.tid = some m.tid →
    e.job = (s.tile n).job → ∃ t : State, Becomes (.resultArrival n .walk k) s t ∧ t.packets = s.packets.eraseIdx k ∧ (t.tile n).misses = [] ∧
      e ∈ (t.tile n).tlb ∧ t.mem = s.mem

/-- R219 to R221, R281, R294, R308, R309, R312, R313, R317 and R361: a home reads the sectors of a request, writes the bytes that one
carries, or performs an atomic as one read-modify-write, and answers; a miss takes its translation from the spur's cache or asks its walker
quay, where a walk starts, which ends with the translation in the spur's cache and on its way to the tile, and a write's waits while the page
is in migration; an arrival is counted in the barrier object, and the last one advances the generation
and tells every waiter; a notice and a reply set the wait latch; a Filhus core reads and writes memory at its home. -/
def Obligations.HomeEvents : Prop :=
  (∀ (s : State) k q p m, AtQuay s k q p m 0 → m.key % 32 = 0 → m.key + 32 * m.n ≤ 2 ^ 44 →
    ∃ (t : State) (r : Packet), Answered s t k q p r m { mkind := 1, tid := 0, key := m.key, n := m.n, so := m.so, mside := m.mside, un := m.un,
                                                         locks := (List.range m.n).map fun i => s.lockAt (m.key / 32 + i) } ∧
      r.payload.length = m.n ∧ (∀ i < m.n, ∀ j < 32, (r.payload.getD i 0).extractLsb' (8 * j) 8 = s.byte (m.key + 32 * i + j)) ∧ t.mem = s.mem) ∧
  (∀ (s : State) k q p m d, AtQuay s k q p m 2 → NoWatch s → Apart s → p.payload = [d] → m.key < 2 ^ 44 → let b := 32 * (m.key / 32)
    ∃ (t : State) (r : Packet), Answered s t k q p r m { mkind := 3, tid := 0 } ∧
      (∀ i < 32, t.byte (b + i) = if m.mask.getLsbD i then d.extractLsb' (8 * i) 8 else s.byte (b + i)) ∧
      (∀ a, (a < b ∨ b + 32 ≤ a) → t.byte a = s.byte a) ∧ t.tiles = s.tiles) ∧
  (∀ (s : State) k q p m op x y, AtQuay s k q p m 4 → NoWatch s → Apart s → m.verb = .rmw op x y → m.n = 4 ∨ m.n = 8 → m.key % m.n = 0 →
    m.key + 8 ≤ 2 ^ 44 → let old := numberOf (fun j => s.byte (m.key + j)) m.n
    ∃ (t : State) (r : Packet), Answered s t k q p r m { mkind := 5, tid := 0, value := BitVec.ofNat 64 old } ∧
      numberOf (fun j => t.byte (m.key + j)) m.n = combine op m.n old (x.toNat % 2 ^ (8 * m.n)) (y.toNat % 2 ^ (8 * m.n)) ∧
      (∀ a, (a < m.key ∨ m.key + m.n ≤ a) → t.byte a = s.byte a) ∧ t.tiles = s.tiles) ∧
  (∀ (s : State) k q p m, AtQuay s k q p m 4 → m.key < 2 ^ 44 →
    (∀ l, m.verb = .writeLock l → ∃ (t : State) (r : Packet), Answered s t k q p r m { mkind := 5, tid := 0 } ∧ t.lockAt (m.key / 32) = l ∧
      (∀ g, g ≠ m.key / 32 → t.lockAt g = s.lockAt g) ∧ t.mem = s.mem) ∧
    (m.verb = .readLock → ∃ (t : State) (r : Packet), Answered s t k q p r m { mkind := 5, tid := 0, value := (s.lockAt (m.key / 32)).setWidth 64 } ∧
      t.locks = s.locks ∧ t.mem = s.mem)) ∧
  (∀ (s : State) n k z, s.stuck = none → s.tileLive n = true → (s.tile n).misses[k]? = some z → z.tid = none →
    (∀ e, (s.spur (spurOf n)).tc = [e] → e.covers z.m.job (z.m.vpage * 65536) = true → (z.m.write = true → leafMig e.leaf = false) →
      ∃ t : State, Becomes (.walkRequest (.ask n) k) s t ∧ e ∈ (t.tile n).tlb ∧ (t.tile n).misses = (s.tile n).misses.eraseIdx k ∧
        t.packets = s.packets ∧ t.mem = s.mem) ∧
    ((s.spur (spurOf n)).tc = [] → ∃ (t : State) (r : Packet), Becomes (.walkRequest (.ask n) k) s t ∧ t.packets = s.packets ++ [r] ∧ r.vc = 0 ∧
      r.dest = BitVec.ofNat 17 (quayCode (walkerQuay (z.m.vpage * 65536))) ∧
      r.mt = some { mkind := 6, tid := (s.tile n).nextTid, verb := .walk z.m } ∧
      (t.tile n).misses = (s.tile n).misses.set k { z with tid := some (s.tile n).nextTid } ∧ t.mem = s.mem)) ∧
  (∀ (s : State) k q p m z, AtQuay s k q p m 6 → m.verb = .walk z → (s.quay q).walks = [] →
    ∃ t : State, Becomes (.walkRequest .join k) s t ∧ t.packets = (s.takeRequest k q).packets ∧ t.mem = s.mem ∧
      (t.quay q).walks = [{ job := z.job, region := z.vpage / 32, joined := [(p.orig.toNat, m.tid, z)], held := false }]) ∧
  (∀ s q k n tid w m e b, WalkEnds s q k n tid w m e b → let ent : TlbEnt := { job := m.job, page := m.vpage * 65536 / 2 ^ b, bits := b, leaf := e }
    ((m.write = true → leafMig e = false) → ∃ (t : State) (r : Packet), (w.held = false → Becomes (.walkDone q k) s t) ∧ (w.held = true → Becomes (.migRecheck q k) s t) ∧
      t.packets = s.packets ++ [r] ∧ r.vc = 0 ∧ r.dest = BitVec.ofNat 17 n ∧ r.mt = some { mkind := 7, tid, verb := .found (some ent) } ∧
      ent ∈ (t.spur (spurOf n)).tc ∧ (t.quay q).walks = [] ∧ t.mem = s.mem) ∧
    (m.write = true → leafMig e = true → ∃ t : State, (w.held = false → Becomes (.walkDone q k) s t) ∧ (w.held = true → Becomes (.migRecheck q k) s t) ∧
      t.packets = s.packets ∧ (t.quay q).walks = [{ w with held := true }] ∧ t.mem = s.mem)) ∧
  (∀ s k a gen expected arrived, Arriving s k a gen expected arrived →
    let w : Waiter := { t := a.t, b := a.b, bind := a.bind, addr := a.addr, win := a.win, pa := a.pa, cap := a.cap }
    let mine (w : Waiter) : Bool := w.win && w.pa == a.pa && w.cap == a.cap && w.t == a.t
    let last : Prop := arrived + 1 = expected
    ∃ t : State, Becomes (.arriveAtHome k) s t ∧ t.arrivals = s.arrivals.eraseIdx k ∧ t.mem = s.mem ∧
      (t.berth a.t a.b).arrives = (s.berth a.t a.b).arrives - 1 ∧ (t.berth a.t a.b).barrier = some (a.addr.setWidth 56, a.cap) ∧
      (¬last → numberOf (fun j => t.padByte a.t (a.pa + 4 + j)) 4 = gen ∧ numberOf (fun j => t.padByte a.t (a.pa + 12 + j)) 4 = arrived + 1 ∧
        t.waiters = s.waiters ++ [w] ∧ t.notices = s.notices) ∧
      (last → numberOf (fun j => t.padByte a.t (a.pa + 4 + j)) 4 = (gen + 1) % 2 ^ 32 ∧
        numberOf (fun j => t.padByte a.t (a.pa + 12 + j)) 4 = 0 ∧ t.waiters = s.waiters.filter (fun w => !mine w) ∧
        t.notices = s.notices ++ s.waiters.filter mine ++ [w])) ∧
  (∀ (s : State) k w, s.stuck = none → s.notices[k]? = some w → (s.tile w.t).powered = true → (s.jobOf w.t).blocks = [] →
    w.bind = (s.berth w.t w.b).bind → (s.berth w.t w.b).status = .bound →
    ∃ t : State, Becomes (.barrierNoticeArrival k) s t ∧ t.notices = s.notices.eraseIdx k ∧ (t.berth w.t w.b).latch = true ∧ t.mem = s.mem ∧
      (w.win = false → ∀ c ∈ (t.tile w.t).tdc, c.have_ = c.dirty)) ∧
  (∀ (s : State) k r (b : Fin 5), s.stuck = none → s.replies[k]? = some r → r.b.toNat = b.val → (s.tile r.t).powered = true →
    (s.jobOf r.t).blocks = [] → (s.berth r.t b).status ≠ .trapped → (s.berth r.t b).status ≠ .held →
    ∃ t : State, Becomes (.replyNoticeArrival k) s t ∧ t.replies = s.replies.eraseIdx k ∧ t.berth r.t b = { s.berth r.t b with latch := true } ∧
      t.mem = s.mem) ∧
  ∀ (s : State) pa n, s.stuck = none → s.booted = true → populatedRun pa n = true →
    (∃ t : State, Becomes (.homeAccess (.filhusLoad pa n)) s t ∧
      t.resp = .value (BitVec.ofNat 64 (numberOf (fun j => s.byte (pa + j)) n)) ∧ t.mem = s.mem) ∧
    ∀ bs, bs.length = n → NoWatch s → Apart s → ∃ t : State, Becomes (.homeAccess (.filhus pa bs)) s t ∧ t.resp = .ok ∧
      (∀ j < n, t.byte (pa + j) = bs.getD j 0) ∧ (∀ a, (a < pa ∨ pa + n ≤ a) → t.byte a = s.byte a) ∧ t.tiles = s.tiles

/-- Every step from a state that is well formed to a next state leaves a well-formed state: the memories keep their canonical form. -/
def Obligations.StepKeepsWf : Prop := ∀ s t : State, s.wf = true → step s = .next t → t.wf = true
end

