-- ==== Sys2Proof/Laws/Sparse.lean ====
section
/-!
SUPPORT. Laws/Sparse.lean: the laws of keyed lists: reading after a change, and the canonical form that every change keeps.
-/
namespace Sys2Proof.Machine

variable {α : Type}

/-! ### Reading after a change -/

theorem SMap.get_put (d v : α) (m : SMap α) (k j : Nat) :
    SMap.get d (m.put k v) j = if j = k then v else SMap.get d m j := by
  induction m with
  | nil => simp [SMap.put, SMap.get]
  | cons x r ih =>
    obtain ⟨k', v'⟩ := x
    simp only [SMap.put]
    split
    · simp [SMap.get]
    · split
      · subst_vars; simp only [SMap.get]; split <;> simp_all
      · simp only [SMap.get, ih]; split <;> split <;> first | rfl | omega

@[simp] theorem SMap.get_put_same (d v : α) (m : SMap α) (k : Nat) : SMap.get d (m.put k v) k = v := by
  simp [SMap.get_put]

theorem SMap.get_put_other (d v : α) (m : SMap α) {k j : Nat} (h : j ≠ k) :
    SMap.get d (m.put k v) j = SMap.get d m j := by simp [SMap.get_put, h]

/-! ### Keys that rise -/

theorem SMap.risesFrom_mono {lo lo' : Nat} (h : lo' ≤ lo) : ∀ m : SMap α, m.risesFrom lo → m.risesFrom lo'
  | [], _ => rfl
  | (k, v) :: r, hm => by
    simp only [SMap.risesFrom, Bool.and_eq_true, decide_eq_true_eq] at *
    exact ⟨by omega, hm.2⟩

theorem SMap.risesFrom_put (v : α) : ∀ (m : SMap α) (lo k : Nat), lo ≤ k → m.risesFrom lo → (m.put k v).risesFrom lo
  | [], lo, k, h, _ => by simp [SMap.put, SMap.risesFrom, h]
  | (k', v') :: r, lo, k, h, hm => by
    simp only [SMap.risesFrom, Bool.and_eq_true, decide_eq_true_eq] at hm
    simp only [SMap.put]
    split
    · simp only [SMap.risesFrom, Bool.and_eq_true, decide_eq_true_eq]; exact ⟨h, by omega, hm.2⟩
    · split
      · simp only [SMap.risesFrom, Bool.and_eq_true, decide_eq_true_eq]; subst_vars; exact ⟨h, hm.2⟩
      · simp only [SMap.risesFrom, Bool.and_eq_true, decide_eq_true_eq]
        exact ⟨hm.1, SMap.risesFrom_put v r (k' + 1) k (by omega) hm.2⟩

theorem SMap.risesFrom_erase : ∀ (m : SMap α) (lo k : Nat), m.risesFrom lo → (m.erase k).risesFrom lo
  | [], _, _, _ => rfl
  | (k', v') :: r, lo, k, hm => by
    simp only [SMap.risesFrom, Bool.and_eq_true, decide_eq_true_eq] at hm
    simp only [SMap.erase]
    split
    · exact SMap.risesFrom_mono (by omega) _ (SMap.risesFrom_erase r (k' + 1) k hm.2)
    · simp only [SMap.risesFrom, Bool.and_eq_true, decide_eq_true_eq]
      exact ⟨hm.1, SMap.risesFrom_erase r (k' + 1) k hm.2⟩

/-- A key below every key of a list is not listed. -/
theorem SMap.get_below (d : α) : ∀ (m : SMap α) {lo k : Nat}, k < lo → m.risesFrom lo → SMap.get d m k = d
  | [], _, _, _, _ => rfl
  | (k', v') :: r, lo, k, h, hm => by
    simp only [SMap.risesFrom, Bool.and_eq_true, decide_eq_true_eq] at hm
    simp only [SMap.get]
    split
    · omega
    · exact SMap.get_below d r (by omega) hm.2

theorem SMap.get_erase (d : α) : ∀ (m : SMap α) (k j : Nat),
    SMap.get d (m.erase k) j = if j = k then d else SMap.get d m j
  | [], k, j => by simp [SMap.erase, SMap.get]
  | (k', v') :: r, k, j => by
    simp only [SMap.erase]
    split
    · rw [SMap.get_erase d r k j]
      subst_vars
      split
      · rfl
      · simp [SMap.get, *]
    · simp only [SMap.get, SMap.get_erase d r k j]
      split <;> split <;> first | rfl | omega

/-! ### The canonical form -/

section
variable [DecidableEq α]

theorem SMap.noDefault_put (d v : α) (h : v ≠ d) : ∀ (m : SMap α) (k : Nat), m.noDefault d → (m.put k v).noDefault d
  | [], k, _ => by simp [SMap.put, SMap.noDefault, h]
  | (k', v') :: r, k, hm => by
    simp only [SMap.noDefault, Bool.and_eq_true, decide_eq_true_eq] at hm
    simp only [SMap.put]
    split
    · simp only [SMap.noDefault, Bool.and_eq_true, decide_eq_true_eq]; exact ⟨h, hm⟩
    · split
      · simp only [SMap.noDefault, Bool.and_eq_true, decide_eq_true_eq]; exact ⟨h, hm.2⟩
      · simp only [SMap.noDefault, Bool.and_eq_true, decide_eq_true_eq]; exact ⟨hm.1, SMap.noDefault_put d v h r k hm.2⟩

theorem SMap.noDefault_erase (d : α) : ∀ (m : SMap α) (k : Nat), m.noDefault d → (m.erase k).noDefault d
  | [], _, _ => rfl
  | (k', v') :: r, k, hm => by
    simp only [SMap.noDefault, Bool.and_eq_true, decide_eq_true_eq] at hm
    simp only [SMap.erase]
    split
    · exact SMap.noDefault_erase d r k hm.2
    · simp only [SMap.noDefault, Bool.and_eq_true, decide_eq_true_eq]; exact ⟨hm.1, SMap.noDefault_erase d r k hm.2⟩

/-- Every change of one key keeps the canonical form. -/
theorem SMap.wf_set (d v : α) (m : SMap α) (k : Nat) (h : m.wf d) : (SMap.set d m k v).wf d := by
  simp only [SMap.wf, Bool.and_eq_true] at h ⊢
  simp only [SMap.set]
  split
  · exact ⟨SMap.risesFrom_erase m 0 k h.1, SMap.noDefault_erase d m k h.2⟩
  · exact ⟨SMap.risesFrom_put v m 0 k (Nat.zero_le k) h.1, SMap.noDefault_put d v ‹_› m k h.2⟩

/-- Reading a key after a change gives the value set there, and elsewhere what was there. -/
theorem SMap.get_set (d v : α) (m : SMap α) (k j : Nat) :
    SMap.get d (SMap.set d m k v) j = if j = k then v else SMap.get d m j := by
  simp only [SMap.set]
  split
  · subst_vars; exact SMap.get_erase _ m k j
  · exact SMap.get_put d v m k j
end

/-! ### Byte memories -/

@[simp] theorem Memory.wf_nil : Memory.wf [] = true := rfl

/-- Writing a byte keeps the canonical form of a memory. -/
theorem Memory.wf_set (m : SMap Byte) (k : Nat) (b : Byte) (h : Memory.wf m) : Memory.wf (SMap.set 0 m k b) :=
  SMap.wf_set 0 b m k h

/-- Writing bytes keeps the canonical form of a memory. -/
@[simp] theorem Memory.wf_writeBytes (m : SMap Byte) (a : Nat) (bs : List Byte) (h : Memory.wf m = true) :
    Memory.wf (m.writeBytes a bs) = true := by
  induction bs generalizing m a with
  | nil => exact h
  | cons b r ih => exact ih _ _ (Memory.wf_set m a b h)

/-- Bytes outside those written read as before. -/
theorem SMap.get_writeBytes_other (m : SMap Byte) (a : Nat) (bs : List Byte) (j : Nat)
    (hj : j < a ∨ a + bs.length ≤ j) : SMap.get 0 (m.writeBytes a bs) j = SMap.get 0 m j := by
  induction bs generalizing m a with
  | nil => rfl
  | cons b r ih =>
    simp only [List.length_cons] at hj
    rw [SMap.writeBytes, ih _ _ (by omega), SMap.get_set 0 b m a j, if_neg (by omega)]

/-- The bytes written are read back. -/
theorem SMap.get_writeBytes_same (m : SMap Byte) (a : Nat) (bs : List Byte) (i : Nat)
    (hi : i < bs.length) : SMap.get 0 (m.writeBytes a bs) (a + i) = bs.getD i 0 := by
  induction bs generalizing m a i with
  | nil => simp at hi
  | cons b r ih =>
    rw [SMap.writeBytes]
    cases i with
    | zero =>
      rw [SMap.get_writeBytes_other _ _ _ _ (by omega), SMap.get_set 0 b m a _]
      simp
    | succ i =>
      have := ih (m := SMap.set 0 m a b) (a := a + 1) i (by simpa using hi)
      rw [show a + (i + 1) = a + 1 + i by omega, this]
      simp

end Sys2Proof.Machine
end

