-- ==== Sys2Proof/Laws/State.lean ====
section
/-!
SUPPORT. Laws/State.lean: what each replacement of a part of the state leaves of the other parts, and reading a part back.
-/
namespace Sys2Proof.Machine

/-! ### The fields that a replacement leaves -/

section
variable (s : State) (t : Nat) (x : Tile)
@[simp] theorem State.setTile_schedule : (s.setTile t x).schedule = s.schedule := rfl
@[simp] theorem State.setTile_cur : (s.setTile t x).cur = s.cur := rfl
@[simp] theorem State.setTile_curB : (s.setTile t x).curB = s.curB := rfl
@[simp] theorem State.setTile_imx : (s.setTile t x).imx = s.imx := rfl
@[simp] theorem State.setTile_fresh : (s.setTile t x).fresh = s.fresh := rfl
@[simp] theorem State.setTile_uid : (s.setTile t x).uid = s.uid := rfl
@[simp] theorem State.setTile_stuck : (s.setTile t x).stuck = s.stuck := rfl
@[simp] theorem State.setTile_booted : (s.setTile t x).booted = s.booted := rfl
@[simp] theorem State.setTile_routers : (s.setTile t x).routers = s.routers := rfl
@[simp] theorem State.setTile_spurs : (s.setTile t x).spurs = s.spurs := rfl
@[simp] theorem State.setTile_fields : (s.setTile t x).fields = s.fields := rfl
@[simp] theorem State.setTile_quays : (s.setTile t x).quays = s.quays := rfl
@[simp] theorem State.setTile_mem : (s.setTile t x).mem = s.mem := rfl
@[simp] theorem State.setTile_locks : (s.setTile t x).locks = s.locks := rfl
@[simp] theorem State.setTile_poison : (s.setTile t x).poison = s.poison := rfl
@[simp] theorem State.setTile_diverged : (s.setTile t x).diverged = s.diverged := rfl
@[simp] theorem State.setTile_ranges : (s.setTile t x).ranges = s.ranges := rfl
@[simp] theorem State.setTile_chans : (s.setTile t x).chans = s.chans := rfl
@[simp] theorem State.setTile_rows : (s.setTile t x).rows = s.rows := rfl
@[simp] theorem State.setTile_packets : (s.setTile t x).packets = s.packets := rfl
@[simp] theorem State.setTile_arrivals : (s.setTile t x).arrivals = s.arrivals := rfl
@[simp] theorem State.setTile_waiters : (s.setTile t x).waiters = s.waiters := rfl
@[simp] theorem State.setTile_notices : (s.setTile t x).notices = s.notices := rfl
@[simp] theorem State.setTile_replies : (s.setTile t x).replies = s.replies := rfl
@[simp] theorem State.setTile_cpWalks : (s.setTile t x).cpWalks = s.cpWalks := rfl
@[simp] theorem State.setTile_jobs : (s.setTile t x).jobs = s.jobs := rfl
@[simp] theorem State.setTile_reductions : (s.setTile t x).reductions = s.reductions := rfl
@[simp] theorem State.setTile_nodes : (s.setTile t x).nodes = s.nodes := rfl
@[simp] theorem State.setTile_jtsel : (s.setTile t x).jtsel = s.jtsel := rfl
@[simp] theorem State.setTile_per : (s.setTile t x).per = s.per := rfl
@[simp] theorem State.setTile_perNext : (s.setTile t x).perNext = s.perNext := rfl
@[simp] theorem State.setTile_tkcnt : (s.setTile t x).tkcnt = s.tkcnt := rfl
@[simp] theorem State.setTile_shoot : (s.setTile t x).shoot = s.shoot := rfl
@[simp] theorem State.setTile_shootBusy : (s.setTile t x).shootBusy = s.shootBusy := rfl
@[simp] theorem State.setTile_shootva : (s.setTile t x).shootva = s.shootva := rfl
@[simp] theorem State.setTile_csnap : (s.setTile t x).csnap = s.csnap := rfl
@[simp] theorem State.setTile_csnapBusy : (s.setTile t x).csnapBusy = s.csnapBusy := rfl
@[simp] theorem State.setTile_orphq : (s.setTile t x).orphq = s.orphq := rfl
@[simp] theorem State.setTile_sethr : (s.setTile t x).sethr = s.sethr := rfl
@[simp] theorem State.setTile_rnote : (s.setTile t x).rnote = s.rnote := rfl
@[simp] theorem State.setTile_gen : (s.setTile t x).gen = s.gen := rfl
@[simp] theorem State.setTile_genBusy : (s.setTile t x).genBusy = s.genBusy := rfl
@[simp] theorem State.setTile_refresh : (s.setTile t x).refresh = s.refresh := rfl
@[simp] theorem State.setTile_retire : (s.setTile t x).retire = s.retire := rfl
@[simp] theorem State.setTile_retireBusy : (s.setTile t x).retireBusy = s.retireBusy := rfl
@[simp] theorem State.setTile_orphlost : (s.setTile t x).orphlost = s.orphlost := rfl
@[simp] theorem State.setTile_modid : (s.setTile t x).modid = s.modid := rfl
@[simp] theorem State.setTile_npsel : (s.setTile t x).npsel = s.npsel := rfl
@[simp] theorem State.setTile_cairn : (s.setTile t x).cairn = s.cairn := rfl
@[simp] theorem State.setTile_resp : (s.setTile t x).resp = s.resp := rfl
@[simp] theorem State.setTile_pcie : (s.setTile t x).pcie = s.pcie := rfl
end

section
variable (s : State) (r : Nat) (x : Router)
@[simp] theorem State.setRouter_schedule : (s.setRouter r x).schedule = s.schedule := rfl
@[simp] theorem State.setRouter_cur : (s.setRouter r x).cur = s.cur := rfl
@[simp] theorem State.setRouter_curB : (s.setRouter r x).curB = s.curB := rfl
@[simp] theorem State.setRouter_imx : (s.setRouter r x).imx = s.imx := rfl
@[simp] theorem State.setRouter_fresh : (s.setRouter r x).fresh = s.fresh := rfl
@[simp] theorem State.setRouter_uid : (s.setRouter r x).uid = s.uid := rfl
@[simp] theorem State.setRouter_stuck : (s.setRouter r x).stuck = s.stuck := rfl
@[simp] theorem State.setRouter_booted : (s.setRouter r x).booted = s.booted := rfl
@[simp] theorem State.setRouter_tiles : (s.setRouter r x).tiles = s.tiles := rfl
@[simp] theorem State.setRouter_spurs : (s.setRouter r x).spurs = s.spurs := rfl
@[simp] theorem State.setRouter_fields : (s.setRouter r x).fields = s.fields := rfl
@[simp] theorem State.setRouter_quays : (s.setRouter r x).quays = s.quays := rfl
@[simp] theorem State.setRouter_mem : (s.setRouter r x).mem = s.mem := rfl
@[simp] theorem State.setRouter_locks : (s.setRouter r x).locks = s.locks := rfl
@[simp] theorem State.setRouter_poison : (s.setRouter r x).poison = s.poison := rfl
@[simp] theorem State.setRouter_diverged : (s.setRouter r x).diverged = s.diverged := rfl
@[simp] theorem State.setRouter_ranges : (s.setRouter r x).ranges = s.ranges := rfl
@[simp] theorem State.setRouter_chans : (s.setRouter r x).chans = s.chans := rfl
@[simp] theorem State.setRouter_rows : (s.setRouter r x).rows = s.rows := rfl
@[simp] theorem State.setRouter_packets : (s.setRouter r x).packets = s.packets := rfl
@[simp] theorem State.setRouter_arrivals : (s.setRouter r x).arrivals = s.arrivals := rfl
@[simp] theorem State.setRouter_waiters : (s.setRouter r x).waiters = s.waiters := rfl
@[simp] theorem State.setRouter_notices : (s.setRouter r x).notices = s.notices := rfl
@[simp] theorem State.setRouter_replies : (s.setRouter r x).replies = s.replies := rfl
@[simp] theorem State.setRouter_cpWalks : (s.setRouter r x).cpWalks = s.cpWalks := rfl
@[simp] theorem State.setRouter_jobs : (s.setRouter r x).jobs = s.jobs := rfl
@[simp] theorem State.setRouter_reductions : (s.setRouter r x).reductions = s.reductions := rfl
@[simp] theorem State.setRouter_nodes : (s.setRouter r x).nodes = s.nodes := rfl
@[simp] theorem State.setRouter_jtsel : (s.setRouter r x).jtsel = s.jtsel := rfl
@[simp] theorem State.setRouter_per : (s.setRouter r x).per = s.per := rfl
@[simp] theorem State.setRouter_perNext : (s.setRouter r x).perNext = s.perNext := rfl
@[simp] theorem State.setRouter_tkcnt : (s.setRouter r x).tkcnt = s.tkcnt := rfl
@[simp] theorem State.setRouter_shoot : (s.setRouter r x).shoot = s.shoot := rfl
@[simp] theorem State.setRouter_shootBusy : (s.setRouter r x).shootBusy = s.shootBusy := rfl
@[simp] theorem State.setRouter_shootva : (s.setRouter r x).shootva = s.shootva := rfl
@[simp] theorem State.setRouter_csnap : (s.setRouter r x).csnap = s.csnap := rfl
@[simp] theorem State.setRouter_csnapBusy : (s.setRouter r x).csnapBusy = s.csnapBusy := rfl
@[simp] theorem State.setRouter_orphq : (s.setRouter r x).orphq = s.orphq := rfl
@[simp] theorem State.setRouter_sethr : (s.setRouter r x).sethr = s.sethr := rfl
@[simp] theorem State.setRouter_rnote : (s.setRouter r x).rnote = s.rnote := rfl
@[simp] theorem State.setRouter_gen : (s.setRouter r x).gen = s.gen := rfl
@[simp] theorem State.setRouter_genBusy : (s.setRouter r x).genBusy = s.genBusy := rfl
@[simp] theorem State.setRouter_refresh : (s.setRouter r x).refresh = s.refresh := rfl
@[simp] theorem State.setRouter_retire : (s.setRouter r x).retire = s.retire := rfl
@[simp] theorem State.setRouter_retireBusy : (s.setRouter r x).retireBusy = s.retireBusy := rfl
@[simp] theorem State.setRouter_orphlost : (s.setRouter r x).orphlost = s.orphlost := rfl
@[simp] theorem State.setRouter_modid : (s.setRouter r x).modid = s.modid := rfl
@[simp] theorem State.setRouter_npsel : (s.setRouter r x).npsel = s.npsel := rfl
@[simp] theorem State.setRouter_cairn : (s.setRouter r x).cairn = s.cairn := rfl
@[simp] theorem State.setRouter_resp : (s.setRouter r x).resp = s.resp := rfl
@[simp] theorem State.setRouter_pcie : (s.setRouter r x).pcie = s.pcie := rfl
end

section
variable (s : State) (p : Nat) (x : Spur)
@[simp] theorem State.setSpur_schedule : (s.setSpur p x).schedule = s.schedule := rfl
@[simp] theorem State.setSpur_cur : (s.setSpur p x).cur = s.cur := rfl
@[simp] theorem State.setSpur_curB : (s.setSpur p x).curB = s.curB := rfl
@[simp] theorem State.setSpur_imx : (s.setSpur p x).imx = s.imx := rfl
@[simp] theorem State.setSpur_fresh : (s.setSpur p x).fresh = s.fresh := rfl
@[simp] theorem State.setSpur_uid : (s.setSpur p x).uid = s.uid := rfl
@[simp] theorem State.setSpur_stuck : (s.setSpur p x).stuck = s.stuck := rfl
@[simp] theorem State.setSpur_booted : (s.setSpur p x).booted = s.booted := rfl
@[simp] theorem State.setSpur_tiles : (s.setSpur p x).tiles = s.tiles := rfl
@[simp] theorem State.setSpur_routers : (s.setSpur p x).routers = s.routers := rfl
@[simp] theorem State.setSpur_fields : (s.setSpur p x).fields = s.fields := rfl
@[simp] theorem State.setSpur_quays : (s.setSpur p x).quays = s.quays := rfl
@[simp] theorem State.setSpur_mem : (s.setSpur p x).mem = s.mem := rfl
@[simp] theorem State.setSpur_locks : (s.setSpur p x).locks = s.locks := rfl
@[simp] theorem State.setSpur_poison : (s.setSpur p x).poison = s.poison := rfl
@[simp] theorem State.setSpur_diverged : (s.setSpur p x).diverged = s.diverged := rfl
@[simp] theorem State.setSpur_ranges : (s.setSpur p x).ranges = s.ranges := rfl
@[simp] theorem State.setSpur_chans : (s.setSpur p x).chans = s.chans := rfl
@[simp] theorem State.setSpur_rows : (s.setSpur p x).rows = s.rows := rfl
@[simp] theorem State.setSpur_packets : (s.setSpur p x).packets = s.packets := rfl
@[simp] theorem State.setSpur_arrivals : (s.setSpur p x).arrivals = s.arrivals := rfl
@[simp] theorem State.setSpur_waiters : (s.setSpur p x).waiters = s.waiters := rfl
@[simp] theorem State.setSpur_notices : (s.setSpur p x).notices = s.notices := rfl
@[simp] theorem State.setSpur_replies : (s.setSpur p x).replies = s.replies := rfl
@[simp] theorem State.setSpur_cpWalks : (s.setSpur p x).cpWalks = s.cpWalks := rfl
@[simp] theorem State.setSpur_jobs : (s.setSpur p x).jobs = s.jobs := rfl
@[simp] theorem State.setSpur_reductions : (s.setSpur p x).reductions = s.reductions := rfl
@[simp] theorem State.setSpur_nodes : (s.setSpur p x).nodes = s.nodes := rfl
@[simp] theorem State.setSpur_jtsel : (s.setSpur p x).jtsel = s.jtsel := rfl
@[simp] theorem State.setSpur_per : (s.setSpur p x).per = s.per := rfl
@[simp] theorem State.setSpur_perNext : (s.setSpur p x).perNext = s.perNext := rfl
@[simp] theorem State.setSpur_tkcnt : (s.setSpur p x).tkcnt = s.tkcnt := rfl
@[simp] theorem State.setSpur_shoot : (s.setSpur p x).shoot = s.shoot := rfl
@[simp] theorem State.setSpur_shootBusy : (s.setSpur p x).shootBusy = s.shootBusy := rfl
@[simp] theorem State.setSpur_shootva : (s.setSpur p x).shootva = s.shootva := rfl
@[simp] theorem State.setSpur_csnap : (s.setSpur p x).csnap = s.csnap := rfl
@[simp] theorem State.setSpur_csnapBusy : (s.setSpur p x).csnapBusy = s.csnapBusy := rfl
@[simp] theorem State.setSpur_orphq : (s.setSpur p x).orphq = s.orphq := rfl
@[simp] theorem State.setSpur_sethr : (s.setSpur p x).sethr = s.sethr := rfl
@[simp] theorem State.setSpur_rnote : (s.setSpur p x).rnote = s.rnote := rfl
@[simp] theorem State.setSpur_gen : (s.setSpur p x).gen = s.gen := rfl
@[simp] theorem State.setSpur_genBusy : (s.setSpur p x).genBusy = s.genBusy := rfl
@[simp] theorem State.setSpur_refresh : (s.setSpur p x).refresh = s.refresh := rfl
@[simp] theorem State.setSpur_retire : (s.setSpur p x).retire = s.retire := rfl
@[simp] theorem State.setSpur_retireBusy : (s.setSpur p x).retireBusy = s.retireBusy := rfl
@[simp] theorem State.setSpur_orphlost : (s.setSpur p x).orphlost = s.orphlost := rfl
@[simp] theorem State.setSpur_modid : (s.setSpur p x).modid = s.modid := rfl
@[simp] theorem State.setSpur_npsel : (s.setSpur p x).npsel = s.npsel := rfl
@[simp] theorem State.setSpur_cairn : (s.setSpur p x).cairn = s.cairn := rfl
@[simp] theorem State.setSpur_resp : (s.setSpur p x).resp = s.resp := rfl
@[simp] theorem State.setSpur_pcie : (s.setSpur p x).pcie = s.pcie := rfl
end

section
variable (s : State) (f : Nat) (x : Field)
@[simp] theorem State.setField_schedule : (s.setField f x).schedule = s.schedule := rfl
@[simp] theorem State.setField_cur : (s.setField f x).cur = s.cur := rfl
@[simp] theorem State.setField_curB : (s.setField f x).curB = s.curB := rfl
@[simp] theorem State.setField_imx : (s.setField f x).imx = s.imx := rfl
@[simp] theorem State.setField_fresh : (s.setField f x).fresh = s.fresh := rfl
@[simp] theorem State.setField_uid : (s.setField f x).uid = s.uid := rfl
@[simp] theorem State.setField_stuck : (s.setField f x).stuck = s.stuck := rfl
@[simp] theorem State.setField_booted : (s.setField f x).booted = s.booted := rfl
@[simp] theorem State.setField_tiles : (s.setField f x).tiles = s.tiles := rfl
@[simp] theorem State.setField_routers : (s.setField f x).routers = s.routers := rfl
@[simp] theorem State.setField_spurs : (s.setField f x).spurs = s.spurs := rfl
@[simp] theorem State.setField_quays : (s.setField f x).quays = s.quays := rfl
@[simp] theorem State.setField_mem : (s.setField f x).mem = s.mem := rfl
@[simp] theorem State.setField_locks : (s.setField f x).locks = s.locks := rfl
@[simp] theorem State.setField_poison : (s.setField f x).poison = s.poison := rfl
@[simp] theorem State.setField_diverged : (s.setField f x).diverged = s.diverged := rfl
@[simp] theorem State.setField_ranges : (s.setField f x).ranges = s.ranges := rfl
@[simp] theorem State.setField_chans : (s.setField f x).chans = s.chans := rfl
@[simp] theorem State.setField_rows : (s.setField f x).rows = s.rows := rfl
@[simp] theorem State.setField_packets : (s.setField f x).packets = s.packets := rfl
@[simp] theorem State.setField_arrivals : (s.setField f x).arrivals = s.arrivals := rfl
@[simp] theorem State.setField_waiters : (s.setField f x).waiters = s.waiters := rfl
@[simp] theorem State.setField_notices : (s.setField f x).notices = s.notices := rfl
@[simp] theorem State.setField_replies : (s.setField f x).replies = s.replies := rfl
@[simp] theorem State.setField_cpWalks : (s.setField f x).cpWalks = s.cpWalks := rfl
@[simp] theorem State.setField_jobs : (s.setField f x).jobs = s.jobs := rfl
@[simp] theorem State.setField_reductions : (s.setField f x).reductions = s.reductions := rfl
@[simp] theorem State.setField_nodes : (s.setField f x).nodes = s.nodes := rfl
@[simp] theorem State.setField_jtsel : (s.setField f x).jtsel = s.jtsel := rfl
@[simp] theorem State.setField_per : (s.setField f x).per = s.per := rfl
@[simp] theorem State.setField_perNext : (s.setField f x).perNext = s.perNext := rfl
@[simp] theorem State.setField_tkcnt : (s.setField f x).tkcnt = s.tkcnt := rfl
@[simp] theorem State.setField_shoot : (s.setField f x).shoot = s.shoot := rfl
@[simp] theorem State.setField_shootBusy : (s.setField f x).shootBusy = s.shootBusy := rfl
@[simp] theorem State.setField_shootva : (s.setField f x).shootva = s.shootva := rfl
@[simp] theorem State.setField_csnap : (s.setField f x).csnap = s.csnap := rfl
@[simp] theorem State.setField_csnapBusy : (s.setField f x).csnapBusy = s.csnapBusy := rfl
@[simp] theorem State.setField_orphq : (s.setField f x).orphq = s.orphq := rfl
@[simp] theorem State.setField_sethr : (s.setField f x).sethr = s.sethr := rfl
@[simp] theorem State.setField_rnote : (s.setField f x).rnote = s.rnote := rfl
@[simp] theorem State.setField_gen : (s.setField f x).gen = s.gen := rfl
@[simp] theorem State.setField_genBusy : (s.setField f x).genBusy = s.genBusy := rfl
@[simp] theorem State.setField_refresh : (s.setField f x).refresh = s.refresh := rfl
@[simp] theorem State.setField_retire : (s.setField f x).retire = s.retire := rfl
@[simp] theorem State.setField_retireBusy : (s.setField f x).retireBusy = s.retireBusy := rfl
@[simp] theorem State.setField_orphlost : (s.setField f x).orphlost = s.orphlost := rfl
@[simp] theorem State.setField_modid : (s.setField f x).modid = s.modid := rfl
@[simp] theorem State.setField_npsel : (s.setField f x).npsel = s.npsel := rfl
@[simp] theorem State.setField_cairn : (s.setField f x).cairn = s.cairn := rfl
@[simp] theorem State.setField_resp : (s.setField f x).resp = s.resp := rfl
@[simp] theorem State.setField_pcie : (s.setField f x).pcie = s.pcie := rfl
end

section
variable (s : State) (q : Nat) (x : Quay)
@[simp] theorem State.setQuay_schedule : (s.setQuay q x).schedule = s.schedule := rfl
@[simp] theorem State.setQuay_cur : (s.setQuay q x).cur = s.cur := rfl
@[simp] theorem State.setQuay_curB : (s.setQuay q x).curB = s.curB := rfl
@[simp] theorem State.setQuay_imx : (s.setQuay q x).imx = s.imx := rfl
@[simp] theorem State.setQuay_fresh : (s.setQuay q x).fresh = s.fresh := rfl
@[simp] theorem State.setQuay_uid : (s.setQuay q x).uid = s.uid := rfl
@[simp] theorem State.setQuay_stuck : (s.setQuay q x).stuck = s.stuck := rfl
@[simp] theorem State.setQuay_booted : (s.setQuay q x).booted = s.booted := rfl
@[simp] theorem State.setQuay_tiles : (s.setQuay q x).tiles = s.tiles := rfl
@[simp] theorem State.setQuay_routers : (s.setQuay q x).routers = s.routers := rfl
@[simp] theorem State.setQuay_spurs : (s.setQuay q x).spurs = s.spurs := rfl
@[simp] theorem State.setQuay_fields : (s.setQuay q x).fields = s.fields := rfl
@[simp] theorem State.setQuay_mem : (s.setQuay q x).mem = s.mem := rfl
@[simp] theorem State.setQuay_locks : (s.setQuay q x).locks = s.locks := rfl
@[simp] theorem State.setQuay_poison : (s.setQuay q x).poison = s.poison := rfl
@[simp] theorem State.setQuay_diverged : (s.setQuay q x).diverged = s.diverged := rfl
@[simp] theorem State.setQuay_ranges : (s.setQuay q x).ranges = s.ranges := rfl
@[simp] theorem State.setQuay_chans : (s.setQuay q x).chans = s.chans := rfl
@[simp] theorem State.setQuay_rows : (s.setQuay q x).rows = s.rows := rfl
@[simp] theorem State.setQuay_packets : (s.setQuay q x).packets = s.packets := rfl
@[simp] theorem State.setQuay_arrivals : (s.setQuay q x).arrivals = s.arrivals := rfl
@[simp] theorem State.setQuay_waiters : (s.setQuay q x).waiters = s.waiters := rfl
@[simp] theorem State.setQuay_notices : (s.setQuay q x).notices = s.notices := rfl
@[simp] theorem State.setQuay_replies : (s.setQuay q x).replies = s.replies := rfl
@[simp] theorem State.setQuay_cpWalks : (s.setQuay q x).cpWalks = s.cpWalks := rfl
@[simp] theorem State.setQuay_jobs : (s.setQuay q x).jobs = s.jobs := rfl
@[simp] theorem State.setQuay_reductions : (s.setQuay q x).reductions = s.reductions := rfl
@[simp] theorem State.setQuay_nodes : (s.setQuay q x).nodes = s.nodes := rfl
@[simp] theorem State.setQuay_jtsel : (s.setQuay q x).jtsel = s.jtsel := rfl
@[simp] theorem State.setQuay_per : (s.setQuay q x).per = s.per := rfl
@[simp] theorem State.setQuay_perNext : (s.setQuay q x).perNext = s.perNext := rfl
@[simp] theorem State.setQuay_tkcnt : (s.setQuay q x).tkcnt = s.tkcnt := rfl
@[simp] theorem State.setQuay_shoot : (s.setQuay q x).shoot = s.shoot := rfl
@[simp] theorem State.setQuay_shootBusy : (s.setQuay q x).shootBusy = s.shootBusy := rfl
@[simp] theorem State.setQuay_shootva : (s.setQuay q x).shootva = s.shootva := rfl
@[simp] theorem State.setQuay_csnap : (s.setQuay q x).csnap = s.csnap := rfl
@[simp] theorem State.setQuay_csnapBusy : (s.setQuay q x).csnapBusy = s.csnapBusy := rfl
@[simp] theorem State.setQuay_orphq : (s.setQuay q x).orphq = s.orphq := rfl
@[simp] theorem State.setQuay_sethr : (s.setQuay q x).sethr = s.sethr := rfl
@[simp] theorem State.setQuay_rnote : (s.setQuay q x).rnote = s.rnote := rfl
@[simp] theorem State.setQuay_gen : (s.setQuay q x).gen = s.gen := rfl
@[simp] theorem State.setQuay_genBusy : (s.setQuay q x).genBusy = s.genBusy := rfl
@[simp] theorem State.setQuay_refresh : (s.setQuay q x).refresh = s.refresh := rfl
@[simp] theorem State.setQuay_retire : (s.setQuay q x).retire = s.retire := rfl
@[simp] theorem State.setQuay_retireBusy : (s.setQuay q x).retireBusy = s.retireBusy := rfl
@[simp] theorem State.setQuay_orphlost : (s.setQuay q x).orphlost = s.orphlost := rfl
@[simp] theorem State.setQuay_modid : (s.setQuay q x).modid = s.modid := rfl
@[simp] theorem State.setQuay_npsel : (s.setQuay q x).npsel = s.npsel := rfl
@[simp] theorem State.setQuay_cairn : (s.setQuay q x).cairn = s.cairn := rfl
@[simp] theorem State.setQuay_resp : (s.setQuay q x).resp = s.resp := rfl
@[simp] theorem State.setQuay_pcie : (s.setQuay q x).pcie = s.pcie := rfl
end

section
variable (s : State) (n : Nat) (x : RNode)
@[simp] theorem State.setNode_schedule : (s.setNode n x).schedule = s.schedule := rfl
@[simp] theorem State.setNode_cur : (s.setNode n x).cur = s.cur := rfl
@[simp] theorem State.setNode_curB : (s.setNode n x).curB = s.curB := rfl
@[simp] theorem State.setNode_imx : (s.setNode n x).imx = s.imx := rfl
@[simp] theorem State.setNode_fresh : (s.setNode n x).fresh = s.fresh := rfl
@[simp] theorem State.setNode_uid : (s.setNode n x).uid = s.uid := rfl
@[simp] theorem State.setNode_stuck : (s.setNode n x).stuck = s.stuck := rfl
@[simp] theorem State.setNode_booted : (s.setNode n x).booted = s.booted := rfl
@[simp] theorem State.setNode_tiles : (s.setNode n x).tiles = s.tiles := rfl
@[simp] theorem State.setNode_routers : (s.setNode n x).routers = s.routers := rfl
@[simp] theorem State.setNode_spurs : (s.setNode n x).spurs = s.spurs := rfl
@[simp] theorem State.setNode_fields : (s.setNode n x).fields = s.fields := rfl
@[simp] theorem State.setNode_quays : (s.setNode n x).quays = s.quays := rfl
@[simp] theorem State.setNode_mem : (s.setNode n x).mem = s.mem := rfl
@[simp] theorem State.setNode_locks : (s.setNode n x).locks = s.locks := rfl
@[simp] theorem State.setNode_poison : (s.setNode n x).poison = s.poison := rfl
@[simp] theorem State.setNode_diverged : (s.setNode n x).diverged = s.diverged := rfl
@[simp] theorem State.setNode_ranges : (s.setNode n x).ranges = s.ranges := rfl
@[simp] theorem State.setNode_chans : (s.setNode n x).chans = s.chans := rfl
@[simp] theorem State.setNode_rows : (s.setNode n x).rows = s.rows := rfl
@[simp] theorem State.setNode_packets : (s.setNode n x).packets = s.packets := rfl
@[simp] theorem State.setNode_arrivals : (s.setNode n x).arrivals = s.arrivals := rfl
@[simp] theorem State.setNode_waiters : (s.setNode n x).waiters = s.waiters := rfl
@[simp] theorem State.setNode_notices : (s.setNode n x).notices = s.notices := rfl
@[simp] theorem State.setNode_replies : (s.setNode n x).replies = s.replies := rfl
@[simp] theorem State.setNode_cpWalks : (s.setNode n x).cpWalks = s.cpWalks := rfl
@[simp] theorem State.setNode_jobs : (s.setNode n x).jobs = s.jobs := rfl
@[simp] theorem State.setNode_reductions : (s.setNode n x).reductions = s.reductions := rfl
@[simp] theorem State.setNode_jtsel : (s.setNode n x).jtsel = s.jtsel := rfl
@[simp] theorem State.setNode_per : (s.setNode n x).per = s.per := rfl
@[simp] theorem State.setNode_perNext : (s.setNode n x).perNext = s.perNext := rfl
@[simp] theorem State.setNode_tkcnt : (s.setNode n x).tkcnt = s.tkcnt := rfl
@[simp] theorem State.setNode_shoot : (s.setNode n x).shoot = s.shoot := rfl
@[simp] theorem State.setNode_shootBusy : (s.setNode n x).shootBusy = s.shootBusy := rfl
@[simp] theorem State.setNode_shootva : (s.setNode n x).shootva = s.shootva := rfl
@[simp] theorem State.setNode_csnap : (s.setNode n x).csnap = s.csnap := rfl
@[simp] theorem State.setNode_csnapBusy : (s.setNode n x).csnapBusy = s.csnapBusy := rfl
@[simp] theorem State.setNode_orphq : (s.setNode n x).orphq = s.orphq := rfl
@[simp] theorem State.setNode_sethr : (s.setNode n x).sethr = s.sethr := rfl
@[simp] theorem State.setNode_rnote : (s.setNode n x).rnote = s.rnote := rfl
@[simp] theorem State.setNode_gen : (s.setNode n x).gen = s.gen := rfl
@[simp] theorem State.setNode_genBusy : (s.setNode n x).genBusy = s.genBusy := rfl
@[simp] theorem State.setNode_refresh : (s.setNode n x).refresh = s.refresh := rfl
@[simp] theorem State.setNode_retire : (s.setNode n x).retire = s.retire := rfl
@[simp] theorem State.setNode_retireBusy : (s.setNode n x).retireBusy = s.retireBusy := rfl
@[simp] theorem State.setNode_orphlost : (s.setNode n x).orphlost = s.orphlost := rfl
@[simp] theorem State.setNode_modid : (s.setNode n x).modid = s.modid := rfl
@[simp] theorem State.setNode_npsel : (s.setNode n x).npsel = s.npsel := rfl
@[simp] theorem State.setNode_cairn : (s.setNode n x).cairn = s.cairn := rfl
@[simp] theorem State.setNode_resp : (s.setNode n x).resp = s.resp := rfl
@[simp] theorem State.setNode_pcie : (s.setNode n x).pcie = s.pcie := rfl
end

section
variable (s : State) (j : Nat) (x : Job)
@[simp] theorem State.setJob_schedule : (s.setJob j x).schedule = s.schedule := rfl
@[simp] theorem State.setJob_cur : (s.setJob j x).cur = s.cur := rfl
@[simp] theorem State.setJob_curB : (s.setJob j x).curB = s.curB := rfl
@[simp] theorem State.setJob_imx : (s.setJob j x).imx = s.imx := rfl
@[simp] theorem State.setJob_fresh : (s.setJob j x).fresh = s.fresh := rfl
@[simp] theorem State.setJob_uid : (s.setJob j x).uid = s.uid := rfl
@[simp] theorem State.setJob_stuck : (s.setJob j x).stuck = s.stuck := rfl
@[simp] theorem State.setJob_booted : (s.setJob j x).booted = s.booted := rfl
@[simp] theorem State.setJob_tiles : (s.setJob j x).tiles = s.tiles := rfl
@[simp] theorem State.setJob_routers : (s.setJob j x).routers = s.routers := rfl
@[simp] theorem State.setJob_spurs : (s.setJob j x).spurs = s.spurs := rfl
@[simp] theorem State.setJob_fields : (s.setJob j x).fields = s.fields := rfl
@[simp] theorem State.setJob_quays : (s.setJob j x).quays = s.quays := rfl
@[simp] theorem State.setJob_mem : (s.setJob j x).mem = s.mem := rfl
@[simp] theorem State.setJob_locks : (s.setJob j x).locks = s.locks := rfl
@[simp] theorem State.setJob_poison : (s.setJob j x).poison = s.poison := rfl
@[simp] theorem State.setJob_diverged : (s.setJob j x).diverged = s.diverged := rfl
@[simp] theorem State.setJob_ranges : (s.setJob j x).ranges = s.ranges := rfl
@[simp] theorem State.setJob_chans : (s.setJob j x).chans = s.chans := rfl
@[simp] theorem State.setJob_rows : (s.setJob j x).rows = s.rows := rfl
@[simp] theorem State.setJob_packets : (s.setJob j x).packets = s.packets := rfl
@[simp] theorem State.setJob_arrivals : (s.setJob j x).arrivals = s.arrivals := rfl
@[simp] theorem State.setJob_waiters : (s.setJob j x).waiters = s.waiters := rfl
@[simp] theorem State.setJob_notices : (s.setJob j x).notices = s.notices := rfl
@[simp] theorem State.setJob_replies : (s.setJob j x).replies = s.replies := rfl
@[simp] theorem State.setJob_cpWalks : (s.setJob j x).cpWalks = s.cpWalks := rfl
@[simp] theorem State.setJob_reductions : (s.setJob j x).reductions = s.reductions := rfl
@[simp] theorem State.setJob_nodes : (s.setJob j x).nodes = s.nodes := rfl
@[simp] theorem State.setJob_jtsel : (s.setJob j x).jtsel = s.jtsel := rfl
@[simp] theorem State.setJob_per : (s.setJob j x).per = s.per := rfl
@[simp] theorem State.setJob_perNext : (s.setJob j x).perNext = s.perNext := rfl
@[simp] theorem State.setJob_tkcnt : (s.setJob j x).tkcnt = s.tkcnt := rfl
@[simp] theorem State.setJob_shoot : (s.setJob j x).shoot = s.shoot := rfl
@[simp] theorem State.setJob_shootBusy : (s.setJob j x).shootBusy = s.shootBusy := rfl
@[simp] theorem State.setJob_shootva : (s.setJob j x).shootva = s.shootva := rfl
@[simp] theorem State.setJob_csnap : (s.setJob j x).csnap = s.csnap := rfl
@[simp] theorem State.setJob_csnapBusy : (s.setJob j x).csnapBusy = s.csnapBusy := rfl
@[simp] theorem State.setJob_orphq : (s.setJob j x).orphq = s.orphq := rfl
@[simp] theorem State.setJob_sethr : (s.setJob j x).sethr = s.sethr := rfl
@[simp] theorem State.setJob_rnote : (s.setJob j x).rnote = s.rnote := rfl
@[simp] theorem State.setJob_gen : (s.setJob j x).gen = s.gen := rfl
@[simp] theorem State.setJob_genBusy : (s.setJob j x).genBusy = s.genBusy := rfl
@[simp] theorem State.setJob_refresh : (s.setJob j x).refresh = s.refresh := rfl
@[simp] theorem State.setJob_retire : (s.setJob j x).retire = s.retire := rfl
@[simp] theorem State.setJob_retireBusy : (s.setJob j x).retireBusy = s.retireBusy := rfl
@[simp] theorem State.setJob_orphlost : (s.setJob j x).orphlost = s.orphlost := rfl
@[simp] theorem State.setJob_modid : (s.setJob j x).modid = s.modid := rfl
@[simp] theorem State.setJob_npsel : (s.setJob j x).npsel = s.npsel := rfl
@[simp] theorem State.setJob_cairn : (s.setJob j x).cairn = s.cairn := rfl
@[simp] theorem State.setJob_resp : (s.setJob j x).resp = s.resp := rfl
@[simp] theorem State.setJob_pcie : (s.setJob j x).pcie = s.pcie := rfl
end

section
variable (s : State) (t : Nat) (b : Fin 5) (y : Berth)
@[simp] theorem State.setBerth_schedule : (s.setBerth t b y).schedule = s.schedule := rfl
@[simp] theorem State.setBerth_cur : (s.setBerth t b y).cur = s.cur := rfl
@[simp] theorem State.setBerth_curB : (s.setBerth t b y).curB = s.curB := rfl
@[simp] theorem State.setBerth_imx : (s.setBerth t b y).imx = s.imx := rfl
@[simp] theorem State.setBerth_fresh : (s.setBerth t b y).fresh = s.fresh := rfl
@[simp] theorem State.setBerth_uid : (s.setBerth t b y).uid = s.uid := rfl
@[simp] theorem State.setBerth_stuck : (s.setBerth t b y).stuck = s.stuck := rfl
@[simp] theorem State.setBerth_booted : (s.setBerth t b y).booted = s.booted := rfl
@[simp] theorem State.setBerth_routers : (s.setBerth t b y).routers = s.routers := rfl
@[simp] theorem State.setBerth_spurs : (s.setBerth t b y).spurs = s.spurs := rfl
@[simp] theorem State.setBerth_fields : (s.setBerth t b y).fields = s.fields := rfl
@[simp] theorem State.setBerth_quays : (s.setBerth t b y).quays = s.quays := rfl
@[simp] theorem State.setBerth_mem : (s.setBerth t b y).mem = s.mem := rfl
@[simp] theorem State.setBerth_locks : (s.setBerth t b y).locks = s.locks := rfl
@[simp] theorem State.setBerth_poison : (s.setBerth t b y).poison = s.poison := rfl
@[simp] theorem State.setBerth_diverged : (s.setBerth t b y).diverged = s.diverged := rfl
@[simp] theorem State.setBerth_ranges : (s.setBerth t b y).ranges = s.ranges := rfl
@[simp] theorem State.setBerth_chans : (s.setBerth t b y).chans = s.chans := rfl
@[simp] theorem State.setBerth_rows : (s.setBerth t b y).rows = s.rows := rfl
@[simp] theorem State.setBerth_packets : (s.setBerth t b y).packets = s.packets := rfl
@[simp] theorem State.setBerth_arrivals : (s.setBerth t b y).arrivals = s.arrivals := rfl
@[simp] theorem State.setBerth_waiters : (s.setBerth t b y).waiters = s.waiters := rfl
@[simp] theorem State.setBerth_notices : (s.setBerth t b y).notices = s.notices := rfl
@[simp] theorem State.setBerth_replies : (s.setBerth t b y).replies = s.replies := rfl
@[simp] theorem State.setBerth_cpWalks : (s.setBerth t b y).cpWalks = s.cpWalks := rfl
@[simp] theorem State.setBerth_jobs : (s.setBerth t b y).jobs = s.jobs := rfl
@[simp] theorem State.setBerth_reductions : (s.setBerth t b y).reductions = s.reductions := rfl
@[simp] theorem State.setBerth_nodes : (s.setBerth t b y).nodes = s.nodes := rfl
@[simp] theorem State.setBerth_jtsel : (s.setBerth t b y).jtsel = s.jtsel := rfl
@[simp] theorem State.setBerth_per : (s.setBerth t b y).per = s.per := rfl
@[simp] theorem State.setBerth_perNext : (s.setBerth t b y).perNext = s.perNext := rfl
@[simp] theorem State.setBerth_tkcnt : (s.setBerth t b y).tkcnt = s.tkcnt := rfl
@[simp] theorem State.setBerth_shoot : (s.setBerth t b y).shoot = s.shoot := rfl
@[simp] theorem State.setBerth_shootBusy : (s.setBerth t b y).shootBusy = s.shootBusy := rfl
@[simp] theorem State.setBerth_shootva : (s.setBerth t b y).shootva = s.shootva := rfl
@[simp] theorem State.setBerth_csnap : (s.setBerth t b y).csnap = s.csnap := rfl
@[simp] theorem State.setBerth_csnapBusy : (s.setBerth t b y).csnapBusy = s.csnapBusy := rfl
@[simp] theorem State.setBerth_orphq : (s.setBerth t b y).orphq = s.orphq := rfl
@[simp] theorem State.setBerth_sethr : (s.setBerth t b y).sethr = s.sethr := rfl
@[simp] theorem State.setBerth_rnote : (s.setBerth t b y).rnote = s.rnote := rfl
@[simp] theorem State.setBerth_gen : (s.setBerth t b y).gen = s.gen := rfl
@[simp] theorem State.setBerth_genBusy : (s.setBerth t b y).genBusy = s.genBusy := rfl
@[simp] theorem State.setBerth_refresh : (s.setBerth t b y).refresh = s.refresh := rfl
@[simp] theorem State.setBerth_retire : (s.setBerth t b y).retire = s.retire := rfl
@[simp] theorem State.setBerth_retireBusy : (s.setBerth t b y).retireBusy = s.retireBusy := rfl
@[simp] theorem State.setBerth_orphlost : (s.setBerth t b y).orphlost = s.orphlost := rfl
@[simp] theorem State.setBerth_modid : (s.setBerth t b y).modid = s.modid := rfl
@[simp] theorem State.setBerth_npsel : (s.setBerth t b y).npsel = s.npsel := rfl
@[simp] theorem State.setBerth_cairn : (s.setBerth t b y).cairn = s.cairn := rfl
@[simp] theorem State.setBerth_resp : (s.setBerth t b y).resp = s.resp := rfl
@[simp] theorem State.setBerth_pcie : (s.setBerth t b y).pcie = s.pcie := rfl
end

/-! ### Reading a part back -/

section
variable (s : State)

@[simp] theorem State.tile_setTile_same (k : Nat) (x : Tile) : (s.setTile k x).tile k = x := SMap.get_put_same _ _ _ _
theorem State.tile_setTile_other {k j : Nat} (x : Tile) (h : j ≠ k) : (s.setTile k x).tile j = s.tile j := SMap.get_put_other _ _ _ h
@[simp] theorem State.spur_setTile (k j : Nat) (x : Tile) : (s.setTile k x).spur j = s.spur j := rfl
@[simp] theorem State.field_setTile (k j : Nat) (x : Tile) : (s.setTile k x).field j = s.field j := rfl
@[simp] theorem State.quay_setTile (k j : Nat) (x : Tile) : (s.setTile k x).quay j = s.quay j := rfl
@[simp] theorem State.node_setTile (k j : Nat) (x : Tile) : (s.setTile k x).node j = s.node j := rfl
@[simp] theorem State.job_setTile (k j : Nat) (x : Tile) : (s.setTile k x).job j = s.job j := rfl
@[simp] theorem State.router_setTile (k j : Nat) (x : Tile) : (s.setTile k x).router j = s.router j := rfl
@[simp] theorem State.spur_setSpur_same (k : Nat) (x : Spur) : (s.setSpur k x).spur k = x := SMap.get_put_same _ _ _ _
theorem State.spur_setSpur_other {k j : Nat} (x : Spur) (h : j ≠ k) : (s.setSpur k x).spur j = s.spur j := SMap.get_put_other _ _ _ h
@[simp] theorem State.tile_setSpur (k j : Nat) (x : Spur) : (s.setSpur k x).tile j = s.tile j := rfl
@[simp] theorem State.field_setSpur (k j : Nat) (x : Spur) : (s.setSpur k x).field j = s.field j := rfl
@[simp] theorem State.quay_setSpur (k j : Nat) (x : Spur) : (s.setSpur k x).quay j = s.quay j := rfl
@[simp] theorem State.node_setSpur (k j : Nat) (x : Spur) : (s.setSpur k x).node j = s.node j := rfl
@[simp] theorem State.job_setSpur (k j : Nat) (x : Spur) : (s.setSpur k x).job j = s.job j := rfl
@[simp] theorem State.router_setSpur (k j : Nat) (x : Spur) : (s.setSpur k x).router j = s.router j := rfl
@[simp] theorem State.field_setField_same (k : Nat) (x : Field) : (s.setField k x).field k = x := SMap.get_put_same _ _ _ _
theorem State.field_setField_other {k j : Nat} (x : Field) (h : j ≠ k) : (s.setField k x).field j = s.field j := SMap.get_put_other _ _ _ h
@[simp] theorem State.tile_setField (k j : Nat) (x : Field) : (s.setField k x).tile j = s.tile j := rfl
@[simp] theorem State.spur_setField (k j : Nat) (x : Field) : (s.setField k x).spur j = s.spur j := rfl
@[simp] theorem State.quay_setField (k j : Nat) (x : Field) : (s.setField k x).quay j = s.quay j := rfl
@[simp] theorem State.node_setField (k j : Nat) (x : Field) : (s.setField k x).node j = s.node j := rfl
@[simp] theorem State.job_setField (k j : Nat) (x : Field) : (s.setField k x).job j = s.job j := rfl
@[simp] theorem State.router_setField (k j : Nat) (x : Field) : (s.setField k x).router j = s.router j := rfl
@[simp] theorem State.quay_setQuay_same (k : Nat) (x : Quay) : (s.setQuay k x).quay k = x := SMap.get_put_same _ _ _ _
theorem State.quay_setQuay_other {k j : Nat} (x : Quay) (h : j ≠ k) : (s.setQuay k x).quay j = s.quay j := SMap.get_put_other _ _ _ h
@[simp] theorem State.tile_setQuay (k j : Nat) (x : Quay) : (s.setQuay k x).tile j = s.tile j := rfl
@[simp] theorem State.spur_setQuay (k j : Nat) (x : Quay) : (s.setQuay k x).spur j = s.spur j := rfl
@[simp] theorem State.field_setQuay (k j : Nat) (x : Quay) : (s.setQuay k x).field j = s.field j := rfl
@[simp] theorem State.node_setQuay (k j : Nat) (x : Quay) : (s.setQuay k x).node j = s.node j := rfl
@[simp] theorem State.job_setQuay (k j : Nat) (x : Quay) : (s.setQuay k x).job j = s.job j := rfl
@[simp] theorem State.router_setQuay (k j : Nat) (x : Quay) : (s.setQuay k x).router j = s.router j := rfl
@[simp] theorem State.node_setNode_same (k : Nat) (x : RNode) : (s.setNode k x).node k = x := SMap.get_put_same _ _ _ _
theorem State.node_setNode_other {k j : Nat} (x : RNode) (h : j ≠ k) : (s.setNode k x).node j = s.node j := SMap.get_put_other _ _ _ h
@[simp] theorem State.tile_setNode (k j : Nat) (x : RNode) : (s.setNode k x).tile j = s.tile j := rfl
@[simp] theorem State.spur_setNode (k j : Nat) (x : RNode) : (s.setNode k x).spur j = s.spur j := rfl
@[simp] theorem State.field_setNode (k j : Nat) (x : RNode) : (s.setNode k x).field j = s.field j := rfl
@[simp] theorem State.quay_setNode (k j : Nat) (x : RNode) : (s.setNode k x).quay j = s.quay j := rfl
@[simp] theorem State.job_setNode (k j : Nat) (x : RNode) : (s.setNode k x).job j = s.job j := rfl
@[simp] theorem State.router_setNode (k j : Nat) (x : RNode) : (s.setNode k x).router j = s.router j := rfl
@[simp] theorem State.job_setJob_same (k : Nat) (x : Job) : (s.setJob k x).job k = x := SMap.get_put_same _ _ _ _
theorem State.job_setJob_other {k j : Nat} (x : Job) (h : j ≠ k) : (s.setJob k x).job j = s.job j := SMap.get_put_other _ _ _ h
@[simp] theorem State.tile_setJob (k j : Nat) (x : Job) : (s.setJob k x).tile j = s.tile j := rfl
@[simp] theorem State.spur_setJob (k j : Nat) (x : Job) : (s.setJob k x).spur j = s.spur j := rfl
@[simp] theorem State.field_setJob (k j : Nat) (x : Job) : (s.setJob k x).field j = s.field j := rfl
@[simp] theorem State.quay_setJob (k j : Nat) (x : Job) : (s.setJob k x).quay j = s.quay j := rfl
@[simp] theorem State.node_setJob (k j : Nat) (x : Job) : (s.setJob k x).node j = s.node j := rfl
@[simp] theorem State.router_setJob (k j : Nat) (x : Job) : (s.setJob k x).router j = s.router j := rfl
@[simp] theorem State.router_setRouter_same (k : Nat) (x : Router) : (s.setRouter k x).router k = x := SMap.get_put_same _ _ _ _
theorem State.router_setRouter_other {k j : Nat} (x : Router) (h : j ≠ k) : (s.setRouter k x).router j = s.router j := SMap.get_put_other _ _ _ h
@[simp] theorem State.tile_setRouter (k j : Nat) (x : Router) : (s.setRouter k x).tile j = s.tile j := rfl
@[simp] theorem State.spur_setRouter (k j : Nat) (x : Router) : (s.setRouter k x).spur j = s.spur j := rfl
@[simp] theorem State.field_setRouter (k j : Nat) (x : Router) : (s.setRouter k x).field j = s.field j := rfl
@[simp] theorem State.quay_setRouter (k j : Nat) (x : Router) : (s.setRouter k x).quay j = s.quay j := rfl
@[simp] theorem State.node_setRouter (k j : Nat) (x : Router) : (s.setRouter k x).node j = s.node j := rfl
@[simp] theorem State.job_setRouter (k j : Nat) (x : Router) : (s.setRouter k x).job j = s.job j := rfl
@[simp] theorem State.spur_setBerth (t : Nat) (b : Fin 5) (y : Berth) (j : Nat) : (s.setBerth t b y).spur j = s.spur j := rfl
@[simp] theorem State.field_setBerth (t : Nat) (b : Fin 5) (y : Berth) (j : Nat) : (s.setBerth t b y).field j = s.field j := rfl
@[simp] theorem State.quay_setBerth (t : Nat) (b : Fin 5) (y : Berth) (j : Nat) : (s.setBerth t b y).quay j = s.quay j := rfl
@[simp] theorem State.node_setBerth (t : Nat) (b : Fin 5) (y : Berth) (j : Nat) : (s.setBerth t b y).node j = s.node j := rfl
@[simp] theorem State.job_setBerth (t : Nat) (b : Fin 5) (y : Berth) (j : Nat) : (s.setBerth t b y).job j = s.job j := rfl
@[simp] theorem State.router_setBerth (t : Nat) (b : Fin 5) (y : Berth) (j : Nat) : (s.setBerth t b y).router j = s.router j := rfl

@[simp] theorem State.tile_setBerth_same (t : Nat) (b : Fin 5) (y : Berth) :
    (s.setBerth t b y).tile t = (s.tile t).setBerth b y := by simp [State.setBerth]

theorem State.tile_setBerth_other {t u : Nat} (b : Fin 5) (y : Berth) (h : u ≠ t) : (s.setBerth t b y).tile u = s.tile u :=
  State.tile_setTile_other s _ h

@[simp] theorem Tile.setBerth_same (x : Tile) (b : Fin 5) (y : Berth) : (x.setBerth b y).berths[b] = y := by
  simp [Tile.setBerth]

theorem Tile.setBerth_other (x : Tile) {b c : Fin 5} (y : Berth) (h : c ≠ b) :
    (x.setBerth b y).berths[c] = x.berths[c] := by
  have : b.val ≠ c.val := fun e => h (Fin.ext e.symm)
  simp [Tile.setBerth, this]

@[simp] theorem State.berth_setBerth_same (t : Nat) (b : Fin 5) (y : Berth) : (s.setBerth t b y).berth t b = y := by
  simp [State.berth, Tile.setBerth]

theorem State.berth_setBerth_other (t : Nat) {b c : Fin 5} (y : Berth) (h : c ≠ b) :
    (s.setBerth t b y).berth t c = s.berth t c := by
  simp [State.berth, Tile.setBerth_other _ _ h]

theorem State.berth_setBerth_tile {t u : Nat} (b c : Fin 5) (y : Berth) (h : u ≠ t) :
    (s.setBerth t b y).berth u c = s.berth u c := by
  simp [State.berth, State.tile_setBerth_other s b y h]

@[simp] theorem State.berth_setTile_same (t : Nat) (x : Tile) (b : Fin 5) : (s.setTile t x).berth t b = x.berths[b] := by
  simp [State.berth]
end

/-! ### Registers of a berth -/

/-- A g register after a result is written: g0 reads zero and discards writes (R32). -/
theorem Berth.rg_write_g (y : Berth) (d r : BitVec 6) (x : BitVec 512) :
    (y.write (.g d) x).rg r = if r = d ∧ d ≠ 0 then x.setWidth 64 else y.rg r := by
  unfold Berth.write Berth.rg
  by_cases hd : d = 0
  · subst hd; simp
  · simp only [hd, if_false, ne_eq, not_false_eq_true, and_true]
    by_cases hr : r = d
    · subst hr
      rw [if_neg hd, if_pos rfl]
      exact Vector.getElem_set_self ..
    · have hn : d.toNat ≠ r.toNat := fun e => hr (BitVec.eq_of_toNat_eq e.symm)
      simp only [hr, if_false]
      split
      · rfl
      · exact Vector.getElem_set_ne _ _ hn

@[simp] theorem Berth.rg_zero (y : Berth) : y.rg 0 = 0 := rfl
@[simp] theorem Berth.rp_zero (y : Berth) : y.rp 0 = BitVec.allOnes 64 := rfl

end Sys2Proof.Machine
end

