-- ==== Sys2Proof/Laws/Issue.lean ====
section
/-!
SUPPORT. Laws/Issue.lean: what issuing an instruction alone in its bundle comes to, and what its retirement does.
-/
namespace Sys2Proof.Machine

/-- A fold whose function fixes the start on every element gives the start. -/
theorem foldl_fixed {α β : Type} (f : β → α → β) (s : β) : ∀ l : List α, (∀ x ∈ l, f s x = s) → l.foldl f s = s
  | [], _ => rfl
  | x :: r, h => by
    rw [List.foldl_cons, h x (List.mem_cons_self ..)]
    exact foldl_fixed f s r fun y hy => h y (List.mem_cons_of_mem _ hy)

/-- A bundle that sends on no new stream opens none (R268). -/
theorem openStreams_self (s : State) (t : Nat) (b : Fin 5) (xs : List Slot)
    (h : ∀ x ∈ xs, ∀ d a b', x.ins = some (.send d a b') → ((s.tile t).stream (((s.berth t b).settle).rg d)).isSome = true) :
    s.openStreams t b xs = s := by
  refine foldl_fixed _ _ _ fun x hx => ?_
  have hx := h x hx
  dsimp only
  split
  · rename_i d a b' heq
    have hs := hx _ _ _ heq
    rw [if_neg]
    simp only [Bool.and_eq_true, not_and, Option.isNone_iff_eq_none]
    intro hh
    rw [hh.2] at hs
    cases hs
  · rfl

/-- The instruction is one whose meaning issues a slot of its own: any but IMX, which extends the next slot (R28). -/
def NotImx : Instr → Prop
  | .imx _ => False
  | _ => True

/-- A send on a stream whose window the tile keeps, or any other instruction (R268). -/
def KnownStream (i : Instr) (s : State) : Prop :=
  ∀ d a b, i = .send d a b → ((s.tile s.cur).stream (s.ops.rg d)).isSome = true

theorem placeSlots_lone {i : Instr} (h : NotImx i) (k : Nat) (e : Option (BitVec 26)) :
    placeSlots k e ([i, .nop, .nop, .nop].map Slot.ofInstr) =
      [⟨i, k, e⟩, ⟨.nop, k + 1, none⟩, ⟨.nop, k + 2, none⟩, ⟨.nop, k + 3, none⟩] := by
  cases i <;> first | rfl | exact absurd h id

/-- The slots of an instruction's bundle in their places. -/
theorem placeSlots_bundle {i : Instr} (h : NotImx i) (s : State) :
    ∃ a z, (∀ x ∈ a ++ z, x.ins = .nop ∨ ∃ v, x.ins = .imx v) ∧
      placeSlots 1 none (s.bundle i) = a ++ ⟨i, s.ctx.slot, s.imx⟩ :: z := by
  cases hv : s.imx with
  | none =>
    refine ⟨[], [⟨.nop, 2, none⟩, ⟨.nop, 3, none⟩, ⟨.nop, 4, none⟩], ?_, ?_⟩
    · intro x hx; left; simp at hx; rcases hx with rfl | rfl | rfl <;> rfl
    · simp only [State.bundle, State.ctx, hv]; exact placeSlots_lone h 1 none
  | some v =>
    refine ⟨[⟨.imx v, 1, none⟩], [⟨.nop, 3, none⟩, ⟨.nop, 4, none⟩], ?_, ?_⟩
    · intro x hx; simp at hx
      rcases hx with rfl | rfl | rfl
      · exact .inr ⟨v, rfl⟩
      · exact .inl rfl
      · exact .inl rfl
    · simp only [State.bundle, State.ctx, hv]
      show _ :: placeSlots 2 (some v) ([i, .nop, .nop].map Slot.ofInstr) = _
      cases i <;> first | rfl | exact absurd h id

/-- A slot with no effect of its own. -/
def Inert (x : Placed) : Prop := x.ins = .nop ∨ ∃ v, x.ins = .imx v

theorem slotOp_nop (c : SlotCtx) (s : State) : slotOp .nop c s = .ok s := rfl
theorem slotOp_imx (v : BitVec 26) (c : SlotCtx) (s : State) : slotOp (.imx v) c s = .ok s := rfl

theorem runSlot_inert {x : Placed} (h : Inert x) (mk : Placed → SlotCtx) (ph : Fin 5) (a : State × List (Nat × SlotRes)) :
    runSlot mk ph a x = a := by
  obtain ⟨i, k, e⟩ := x
  rcases h with h | ⟨v, h⟩ <;> dsimp only at h <;> subst h <;> (simp only [runSlot, slotOp_nop, slotOp_imx, ite_self])

theorem runPhase_alone {a z : List Placed} {x : Placed} (h : ∀ y ∈ a ++ z, Inert y) (mk : Placed → SlotCtx) (ph : Fin 5)
    (r : State × List (Nat × SlotRes)) : (a ++ x :: z).foldl (runSlot mk ph) r = runSlot mk ph r x := by
  rw [List.foldl_append, List.foldl_cons,
    foldl_fixed _ r a fun y hy => runSlot_inert (h y (List.mem_append_left _ hy)) ..,
    foldl_fixed _ _ z fun y hy => runSlot_inert (h y (List.mem_append_right _ hy)) ..]

theorem phase_cases (k : Fin 5) : k = 0 ∨ k = 1 ∨ k = 2 ∨ k = 3 ∨ k = 4 := by omega

/-- The slots of a bundle of which one alone has an effect. -/
theorem runSlots_alone {a z : List Placed} {x : Placed} (h : ∀ y ∈ a ++ z, Inert y) (mk : Placed → SlotCtx) (s : State) :
    runSlots mk (a ++ x :: z) s = runSlot mk (phase x.ins) (s, []) x := by
  simp only [runSlots, List.foldl_cons, List.foldl_nil, runPhase_alone h]
  rcases phase_cases (phase x.ins) with e | e | e | e | e <;> simp [runSlot, e]

theorem runSlots_ok {a z : List Placed} {x : Placed} (h : ∀ y ∈ a ++ z, Inert y) {mk : Placed → SlotCtx} {s t : State}
    (ho : slotOp x.ins (mk x) s = .ok t) : runSlots mk (a ++ x :: z) s = (t, []) := by
  rw [runSlots_alone h]; simp [runSlot, ho]

theorem mWrites_inert {x : Placed} (h : Inert x) : mWrites x.ins = none := by
  obtain ⟨i, k, e⟩ := x
  rcases h with h | ⟨v, h⟩ <;> dsimp only at h <;> subst h <;> rfl

theorem firstSome_none {α β : Type} (f : α → Option β) : ∀ l : List α, (∀ x ∈ l, f x = none) → firstSome f l = none
  | [], _ => rfl
  | x :: r, h => by
    simp only [firstSome, h x (List.mem_cons_self ..)]
    exact firstSome_none f r fun y hy => h y (List.mem_cons_of_mem _ hy)

theorem steerClash_alone {a z : List Placed} {x : Placed} (h : ∀ y ∈ a ++ z, Inert y) (y : Berth) :
    steerClash y (a ++ x :: z) = none := by
  refine firstSome_none _ _ fun p hp => ?_
  have key : ∀ m : MReg, (mWrites x.ins = none) →
      firstSome (fun q => if mWrites q.ins = some m then some (max p.pos q.pos) else none) (a ++ x :: z) = none := by
    intro m hm
    refine firstSome_none _ _ fun q hq => if_neg ?_
    rcases List.mem_append.1 hq with hq | hq
    · simp [mWrites_inert (h q (List.mem_append_left _ hq))]
    · rcases List.mem_cons.1 hq with rfl | hq
      · simp [hm]
      · simp [mWrites_inert (h q (List.mem_append_right _ hq))]
  rcases List.mem_append.1 hp with hp | hp
  · rcases h p (List.mem_append_left _ hp) with e | ⟨v, e⟩ <;> simp [e]
  · rcases List.mem_cons.1 hp with rfl | hp
    · split
      · rename_i e; exact key _ (by simp [e, mWrites])
      · rename_i e; exact key _ (by simp [e, mWrites])
      · rfl
    · rcases h p (List.mem_append_right _ hp) with e | ⟨v, e⟩ <;> simp [e]

@[simp] theorem State.berth_issuing (s : State) : s.issuing.berth s.cur s.curB = s.ops := by
  unfold State.issuing State.acting
  rw [State.berth_setTile_same]
  exact Tile.setBerth_same ..

/-- The one effect of a bundle of one instruction, when its operation answers a state. -/
theorem runBundle_ok {i : Instr} (hi : NotImx i) {s t : State} (ho : slotOp i s.ctx s.issuing = .ok t) :
    s.issuing.runBundle s.cur s.curB s.me.ip s.nextIp (s.bundle i) = .ok t := by
  obtain ⟨a, z, hz, e⟩ := placeSlots_bundle hi s
  have hz : ∀ y ∈ a ++ z, Inert y := hz
  have hc : slotCtx s.issuing s.cur s.curB s.me.ip s.nextIp ⟨i, s.ctx.slot, s.imx⟩ = s.ctx := by
    simp [slotCtx, State.ctx]
  have hr := runSlots_ok (x := ⟨i, s.ctx.slot, s.imx⟩) hz (mk := slotCtx s.issuing s.cur s.curB s.me.ip s.nextIp) (s := s.issuing)
    (t := t) (by rw [hc]; exact ho)
  simp only [State.runBundle, e, hr, steerClash_alone hz]
  rfl

/-! ### Landing and going on -/

/-- Results that land change registers and flags alone (R35). -/
theorem Berth.settle_frame (y : Berth) :
    ∃ g v p f l, y.settle = { y with g := g, v := v, p := p, fflags := f, landing := l } := by
  have one : ∀ (z : Berth) (e : Landing), ∃ g v p f, z.landOne e = { z with g := g, v := v, p := p, fflags := f } := by
    intro z e
    unfold Berth.landOne Berth.write
    cases e.dest with
    | g r => dsimp only; split <;> exact ⟨_, _, _, _, rfl⟩
    | v r => exact ⟨_, _, _, _, rfl⟩
    | p r => dsimp only; split <;> exact ⟨_, _, _, _, rfl⟩
  have all : ∀ (l : List Landing) (z : Berth), ∃ g v p f, l.foldl Berth.landOne z = { z with g := g, v := v, p := p, fflags := f } := by
    intro l
    induction l with
    | nil => exact fun z => ⟨_, _, _, _, rfl⟩
    | cons e r ih =>
      intro z
      obtain ⟨g, v, p, f, h1⟩ := one z e
      obtain ⟨g', v', p', f', h2⟩ := ih (z.landOne e)
      exact ⟨g', v', p', f', by rw [List.foldl_cons, h2, h1]⟩
  obtain ⟨g, v, p, f, h⟩ := all (y.landing.filter y.lands) { y with landing := y.landing.filter fun e => !y.lands e }
  exact ⟨_, _, _, _, _, h⟩

@[simp] theorem Berth.settle_after (y : Berth) : y.settle.after = y.after := by
  obtain ⟨_, _, _, _, _, h⟩ := y.settle_frame; rw [h]
@[simp] theorem Berth.settle_xfer (y : Berth) : y.settle.xfer = y.xfer := by
  obtain ⟨_, _, _, _, _, h⟩ := y.settle_frame; rw [h]
@[simp] theorem Berth.settle_loops (y : Berth) : y.settle.loops = y.loops := by
  obtain ⟨_, _, _, _, _, h⟩ := y.settle_frame; rw [h]
@[simp] theorem Berth.settle_ip (y : Berth) : y.settle.ip = y.ip := by
  obtain ⟨_, _, _, _, _, h⟩ := y.settle_frame; rw [h]
@[simp] theorem Berth.settle_faults (y : Berth) : y.settle.faults = y.faults := by
  obtain ⟨_, _, _, _, _, h⟩ := y.settle_frame; rw [h]
@[simp] theorem Berth.settle_pos (y : Berth) : y.settle.pos = y.pos := by
  obtain ⟨_, _, _, _, _, h⟩ := y.settle_frame; rw [h]
@[simp] theorem Berth.settle_handles (y : Berth) : y.settle.handles = y.handles := by
  obtain ⟨_, _, _, _, _, h⟩ := y.settle_frame; rw [h]
@[simp] theorem Berth.settle_status (y : Berth) : y.settle.status = y.status := by
  obtain ⟨_, _, _, _, _, h⟩ := y.settle_frame; rw [h]

/-- Going on changes the fetch address, the loops and the pending transfer alone (R41, R117). -/
theorem Berth.advance_frame (y : Berth) (next : Word) :
    ∃ a ls x, y.advance next = { y with ip := a, loops := ls, xfer := x } := by
  unfold Berth.advance
  dsimp only
  split
  · exact ⟨_, _, _, rfl⟩
  · split
    · split
      · exact ⟨_, _, _, rfl⟩
      · exact ⟨_, _, _, rfl⟩
    · exact ⟨_, _, _, rfl⟩

@[simp] theorem Berth.advance_after (y : Berth) (next : Word) : (y.advance next).after = y.after := by
  obtain ⟨_, _, _, h⟩ := y.advance_frame next; rw [h]

@[simp] theorem Berth.retired_after (y : Berth) (next : Word) : (y.retired next).after = y.after := by
  simp [Berth.retired]

/-! ### Retirement -/

theorem SMap.put_put {α : Type} (v w : α) : ∀ (m : SMap α) (k : Nat), (m.put k v).put k w = m.put k w
  | [], k => by simp [SMap.put]
  | (j, u) :: r, k => by
    unfold SMap.put
    by_cases h : k < j
    · simp [h, SMap.put]
    · by_cases e : k = j
      · simp [e, SMap.put]
      · simp [h, e, SMap.put, SMap.put_put v w r k]

theorem State.setTile_setTile (s : State) (t : Nat) (x y : Tile) : (s.setTile t x).setTile t y = s.setTile t y := by
  simp [State.setTile, SMap.put_put]

theorem Tile.setBerth_self (x : Tile) (b : Fin 5) : x.setBerth b x.berths[b] = x := by
  have : x.berths.set b x.berths[b] = x.berths := Vector.set_getElem_self b.isLt
  simp only [Tile.setBerth, this]

theorem Tile.setBerth_setBerth (x : Tile) (b : Fin 5) (y z : Berth) : (x.setBerth b y).setBerth b z = x.setBerth b z := by
  have : (x.berths.set b y).set b z = x.berths.set b z := Vector.set_set ..
  simp only [Tile.setBerth, this]

theorem State.charge_setTile (s : State) (f c j n t : Nat) (x : Tile) :
    (s.charge f c j n).setTile t x = (s.setTile t x).charge f c j n := rfl

@[simp] theorem State.tile_charge (s : State) (f c j n t : Nat) : (s.charge f c j n).tile t = s.tile t := rfl

/-- A bundle's counts change the bubble count of its tile and activity counts of its field alone (R34, R413). -/
theorem State.countBundle_eq (s : State) (t : Nat) (xs : List Slot) :
    ∃ n, s.countBundle t xs =
      ((s.setTile t { s.tile t with bubbles := bubblesOf xs }).charge (fieldOf t) 2 (s.tile t).job.toNat 1).charge (fieldOf t) 6
        (s.tile t).job.toNat n ∨
      s.countBundle t xs = (s.setTile t { s.tile t with bubbles := bubblesOf xs }).charge (fieldOf t) 2 (s.tile t).job.toNat 1 := by
  unfold State.countBundle
  dsimp only
  split
  · exact ⟨0, .inr rfl⟩
  · exact ⟨_, .inl rfl⟩

@[simp] theorem State.countBundle_tile (s : State) (t : Nat) (xs : List Slot) :
    (s.countBundle t xs).tile t = { s.tile t with bubbles := bubblesOf xs } := by
  obtain ⟨n, h | h⟩ := s.countBundle_eq t xs <;> rw [h] <;> simp

theorem State.countBundle_setTile (s : State) (t : Nat) (xs : List Slot) :
    (s.countBundle t xs).setTile t ((s.countBundle t xs).tile t) = s.countBundle t xs := by
  rw [State.countBundle_tile]
  obtain ⟨n, h | h⟩ := s.countBundle_eq t xs <;> rw [h] <;>
    simp only [State.charge_setTile, State.setTile_setTile]

/-- A bundle that leaves nothing to do afterwards has no further effect. -/
theorem State.finishBundle_nothing (s : State) (t : Nat) (b : Fin 5) (baddr next : Word) (xs : List Slot)
    (h : (s.berth t b).after = .nothing) :
    (s.countBundle t xs).finishBundle t b baddr next = s.countBundle t xs := by
  have hb : (s.countBundle t xs).berth t b = s.berth t b := by simp [State.berth]
  have hy : { s.berth t b with after := After.nothing } = s.berth t b := by rw [← h]
  have key : (s.countBundle t xs).setBerth t b (s.berth t b) = s.countBundle t xs := by
    rw [State.setBerth]
    have : ((s.countBundle t xs).tile t).setBerth b (s.berth t b) = (s.countBundle t xs).tile t := by
      rw [← hb]; exact Tile.setBerth_self ..
    rw [this, State.countBundle_setTile]
  unfold State.finishBundle
  rw [hb]
  simp only [h, hy, key]

/-- The retirement of a bundle that leaves nothing to do afterwards and ends no ERET. -/
theorem State.retireBundle_eq (s t : State) (i : Instr) (ha : (t.berth s.cur s.curB).after = .nothing)
    (hr : (t.berth s.cur s.curB).returns = false) (ip : Word) :
    t.retireBundle s.cur s.curB ip s.nextIp (s.bundle i) = s.retires i t := by
  have hf := State.finishBundle_nothing
    (t.setBerth s.cur s.curB ((t.berth s.cur s.curB).retired s.nextIp)) s.cur s.curB ip s.nextIp (s.bundle i) (by simp [ha])
  unfold State.retireBundle State.retires
  unfold Berth.returns at hr
  refine (if_neg fun h => ?_).trans hf
  exact Bool.noConfusion (h.symm.trans hr)

@[simp] theorem State.stuck_charge (s : State) (f c j n : Nat) : (s.charge f c j n).stuck = s.stuck := rfl

@[simp] theorem State.stuck_retires (s : State) (i : Instr) (t : State) : (s.retires i t).stuck = t.stuck := by
  unfold State.retires
  obtain ⟨n, h | h⟩ := (t.setBerth s.cur s.curB ((t.berth s.cur s.curB).retired s.nextIp)).countBundle_eq s.cur (s.bundle i) <;>
    rw [h] <;> rfl

theorem finish_next {s : State} (h : s.stuck = none) : finish s = .next s := by simp [finish, h]

/-! ### Issue -/

/-- The bundle of an instruction opens no stream but where it sends on a new one. -/
theorem openStreams_bundle {i : Instr} {s : State} (hk : KnownStream i s) :
    s.plain.openStreams s.cur s.curB (s.bundle i) = s.plain := by
  refine openStreams_self _ _ _ _ fun x hx d a b' he => ?_
  have hm : x = Slot.ofInstr i ∨ x = Slot.ofInstr .nop ∨ ∃ v, x = Slot.ofInstr (.imx v) := by
    unfold State.bundle at hx
    cases hv : s.imx with
    | none =>
      rw [hv] at hx
      simp only [List.map_cons, List.map_nil, List.mem_cons, List.not_mem_nil, or_false] at hx
      rcases hx with rfl | rfl | rfl | rfl <;> first | exact .inl rfl | exact .inr (.inl rfl)
    | some v =>
      rw [hv] at hx
      simp only [List.map_cons, List.map_nil, List.mem_cons, List.not_mem_nil, or_false] at hx
      rcases hx with rfl | rfl | rfl | rfl <;> first | exact .inr (.inr ⟨v, rfl⟩) | exact .inl rfl | exact .inr (.inl rfl)
  rcases hm with rfl | rfl | ⟨v, rfl⟩
  · exact hk d a b' (Option.some.inj he)
  · cases (Option.some.inj he)
  · cases (Option.some.inj he)

/-- An instruction that issues alone, its operation answering a state, retires (R44, R247, R349). -/
theorem issueOne_ok {i : Instr} {s t : State} (hi0 : NotImx i) (h : Issues i s) (hk : KnownStream i s)
    (ho : slotOp i s.ctx s.issuing = .ok t) :
    issueOne i s = finish (t.retireBundle s.cur s.curB s.me.ip s.nextIp (s.bundle i)) := by
  have hc := h.passes
  have hn := h.notHeld
  have hl : (s.plain.berth s.cur s.curB).late = false := h.arrived
  have hf : (s.issuing.berth s.cur s.curB).faults = [] := by simp [State.ops, h.noFault]
  have hi : s.plain.setTile s.cur ({ s.plain.tile s.cur with frozen := none }.setBerth s.curB (s.plain.berth s.cur s.curB).settle)
      = s.issuing := rfl
  have key : s.plain.issueBundle s.cur s.curB s.me.ip s.nextIp (.ok (s.bundle i))
      = t.retireBundle s.cur s.curB s.me.ip s.nextIp (s.bundle i) := by
    have hrun := runBundle_ok hi0 ho
    unfold State.issueBundle
    simp only [openStreams_bundle hk, hn, hl, hi, hf, hc, hrun, Bool.false_eq_true, if_false]
  exact (if_pos h.runs).trans (congrArg finish key)

/-- The same for an operation that leaves nothing to do after the bundle: the next state is the retired one. -/
theorem issueOne_next {i : Instr} {s t : State} (hi : NotImx i) (h : Issues i s) (hk : KnownStream i s)
    (ho : slotOp i s.ctx s.issuing = .ok t) (hs : t.stuck = none) (ha : (t.berth s.cur s.curB).after = .nothing)
    (hr : (t.berth s.cur s.curB).returns = false) : issueOne i s = .next (s.retires i t) := by
  rw [issueOne_ok hi h hk ho, State.retireBundle_eq s t i ha hr]
  exact finish_next (by simp [hs])

/-! ### Operations on the issuing berth -/

theorem State.acting_berth (s : State) (y : Berth) : (s.acting y).berth s.cur s.curB = y := by
  unfold State.acting
  rw [State.berth_setTile_same]
  exact Tile.setBerth_same ..

theorem State.acting_tile (s : State) (y : Berth) : (s.acting y).tile s.cur = (s.tile s.cur).thaw.setBerth s.curB y :=
  State.tile_setTile_same ..

@[simp] theorem State.acting_stuck (s : State) (y : Berth) : (s.acting y).stuck = s.stuck := rfl

/-- An operation that changes the issuing berth alone. -/
theorem State.acting_setBerth (s : State) (y z : Berth) : (s.acting y).setBerth s.cur s.curB z = s.acting z := by
  unfold State.setBerth
  rw [State.acting_tile, Tile.setBerth_setBerth]
  exact State.setTile_setTile ..

theorem upd_issuing (s : State) (f : Berth → Berth) : s.ctx.upd s.issuing f = s.acting (f s.ops) := by
  have h : s.ctx.cur s.issuing = s.ops := s.berth_issuing
  unfold SlotCtx.upd
  rw [h]
  exact s.acting_setBerth ..

theorem land_issuing (s : State) (d : Dest) (x : BitVec 512) (l : Nat) (fl : FFlags) :
    s.ctx.landWide s.issuing d x l fl .here = s.acting (s.ops.gets d x l fl) := upd_issuing ..

/-- The retirement of an operation on the issuing berth alone. -/
theorem me_retires (s : State) (i : Instr) (y : Berth) : (s.retires i (s.acting y)).me = y.retired s.nextIp := by
  have hc : ∀ z : State, (z.countBundle s.cur (s.bundle i)).cur = z.cur ∧ (z.countBundle s.cur (s.bundle i)).curB = z.curB := by
    intro z
    obtain ⟨n, h | h⟩ := z.countBundle_eq s.cur (s.bundle i) <;> rw [h] <;> exact ⟨rfl, rfl⟩
  unfold State.me State.retires
  rw [(hc _).1, (hc _).2, State.acting_setBerth, State.acting_berth]
  show ((s.acting _).countBundle s.cur (s.bundle i)).berth s.cur s.curB = _
  unfold State.berth
  rw [State.countBundle_tile]
  exact (s.acting_berth _)

/-- A charge changes an activity count of a field alone (R413). -/
theorem State.field_charge (s : State) (f c j n g : Nat) :
    ∃ a, (s.charge f c j n).field g = { s.field g with activity := a } := by
  unfold State.charge
  by_cases h : g = f
  · subst h; exact ⟨_, State.field_setField_same ..⟩
  · exact ⟨_, State.field_setField_other _ _ h⟩

theorem State.field_countBundle (s : State) (t : Nat) (xs : List Slot) (g : Nat) :
    ∃ a, (s.countBundle t xs).field g = { s.field g with activity := a } := by
  obtain ⟨n, h | h⟩ := s.countBundle_eq t xs <;> rw [h]
  · obtain ⟨a, e⟩ := State.field_charge ((s.setTile t { s.tile t with bubbles := bubblesOf xs }).charge (fieldOf t) 2 (s.tile t).job.toNat 1)
      (fieldOf t) 6 (s.tile t).job.toNat n g
    obtain ⟨a', e'⟩ := State.field_charge (s.setTile t { s.tile t with bubbles := bubblesOf xs }) (fieldOf t) 2 (s.tile t).job.toNat 1 g
    exact ⟨a, by rw [e, e']; rfl⟩
  · exact State.field_charge ..

/-- What the retirement of an operation on the issuing berth alone leaves unchanged. -/
theorem onlyBerth_retires (s : State) (i : Instr) (y : Berth) : OnlyBerth s (s.retires i (s.acting y)) := by
  have e : s.retires i (s.acting y) = (s.acting (y.retired s.nextIp)).countBundle s.cur (s.bundle i) := by
    unfold State.retires; rw [State.acting_setBerth, State.acting_berth]
  generalize y.retired s.nextIp = z at e
  have ht : ∀ k, k ≠ s.cur → (s.retires i (s.acting y)).tile k = s.tile k := by
    intro k hk
    rw [e]
    obtain ⟨n, h | h⟩ := (s.acting z).countBundle_eq s.cur (s.bundle i) <;> rw [h] <;> simp only [State.tile_charge] <;>
      rw [State.tile_setTile_other _ _ hk] <;> exact State.tile_setTile_other _ _ hk
  have hc : (s.retires i (s.acting y)).tile s.cur = { (s.tile s.cur).thaw.setBerth s.curB z with bubbles := bubblesOf (s.bundle i) } := by
    rw [e, State.countBundle_tile, State.acting_tile]
  have hm : (s.retires i (s.acting y)).mem = s.mem := by
    rw [e]
    obtain ⟨n, h | h⟩ := (s.acting z).countBundle_eq s.cur (s.bundle i) <;> rw [h] <;> rfl
  have hg : (s.retires i (s.acting y)).ranges = s.ranges := by
    rw [e]
    obtain ⟨n, h | h⟩ := (s.acting z).countBundle_eq s.cur (s.bundle i) <;> rw [h] <;> rfl
  refine ⟨?_, ht, ?_, ?_, ?_, ?_, ?_⟩
  · rw [e]
    obtain ⟨n, h | h⟩ := (s.acting z).countBundle_eq s.cur (s.bundle i) <;> rw [h] <;> rfl
  · rw [hc]; rfl
  · intro b hb
    unfold State.berth
    rw [hc]
    exact (Tile.setBerth_other _ _ hb)
  · intro f
    rw [e]
    obtain ⟨a, h⟩ := (s.acting z).field_countBundle s.cur (s.bundle i) f
    rw [h]
    rfl
  · intro a; unfold State.byte State.pb State.cell State.channelOf; rw [hm, hg]
  · intro k a
    unfold State.padByte
    by_cases hk : k = s.cur
    · subst hk; rw [hc]; rfl
    · rw [ht k hk]

/-- An instruction whose operation changes the issuing berth alone, leaving nothing to do after the bundle. -/
theorem issueOne_acting {i : Instr} {s : State} {y : Berth} (hi : NotImx i) (h : Issues i s) (hk : KnownStream i s)
    (ho : slotOp i s.ctx s.issuing = .ok (s.acting y)) (ha : y.after = .nothing) (hr : y.returns = false) :
    ∃ t, issueOne i s = .next t ∧ t.me = y.retired s.nextIp ∧ OnlyBerth s t :=
  ⟨_, issueOne_next hi h hk ho h.populated (by rw [State.acting_berth]; exact ha) (by rw [State.acting_berth]; exact hr),
    me_retires s i y, onlyBerth_retires s i y⟩

@[simp] theorem Berth.returns_settle (y : Berth) : y.settle.returns = y.returns := by
  unfold Berth.returns; rw [Berth.settle_xfer]

theorem Issues.ops_after {i : Instr} {s : State} (h : Issues i s) : s.ops.after = .nothing := by simp [State.ops, h.idle]
theorem Issues.ops_returns {i : Instr} {s : State} (h : Issues i s) : s.ops.returns = false := by simp [State.ops, h.stays]

/-- An instruction whose operation changes the issuing berth alone acts on it. -/
theorem acts_of {i : Instr} {s : State} {y : Berth} (he : exec i s = issueOne i s) (hi : NotImx i) (h : Issues i s)
    (hk : KnownStream i s) (ho : slotOp i s.ctx s.issuing = .ok (s.acting y)) (ha : y.after = s.ops.after)
    (hr : y.returns = false) : Acts i s y := by
  unfold Acts; rw [he]
  exact issueOne_acting hi h hk ho (by rw [ha, h.ops_after]) hr

/-- An instruction whose operation lands one result. -/
theorem lands_of {i : Instr} {s : State} {d : Dest} {x : BitVec 512} {l : Nat} {fl : FFlags} (he : exec i s = issueOne i s)
    (hi : NotImx i) (h : Issues i s) (hk : KnownStream i s)
    (ho : slotOp i s.ctx s.issuing = .ok (s.ctx.landWide s.issuing d x l fl .here)) : Lands i s d x l fl := by
  rw [land_issuing] at ho
  exact acts_of he hi h hk ho rfl h.ops_returns

/-- The same for a g register, the value given another form. -/
theorem landsG_of {i : Instr} {s : State} {d : GReg} {x x' : Word} {l : Nat} {fl : FFlags} (he : exec i s = issueOne i s)
    (hi : NotImx i) (h : Issues i s) (hk : KnownStream i s)
    (ho : slotOp i s.ctx s.issuing = s.ctx.result s.issuing d x' l fl) (hx : x' = x) : LandsG i s d x l fl := by
  subst hx; exact lands_of he hi h hk ho

/-- An instruction whose operation leaves a state with nothing to do after the bundle. -/
theorem leaves_of {i : Instr} {s u : State} (he : exec i s = issueOne i s) (hi : NotImx i) (h : Issues i s)
    (hk : KnownStream i s) (ho : slotOp i s.ctx s.issuing = .ok u) (hs : u.stuck = none)
    (ha : (u.berth s.cur s.curB).after = .nothing) (hr : (u.berth s.cur s.curB).returns = false) : Leaves i s u :=
  he.trans (issueOne_next hi h hk ho hs ha hr)

/-! ### Traps -/

theorem runSlots_trap {a z : List Placed} {x : Placed} (h : ∀ y ∈ a ++ z, Inert y) {mk : Placed → SlotCtx} {s : State} {r : TrapRec}
    (ho : slotOp x.ins (mk x) s = .trap r) : runSlots mk (a ++ x :: z) s = (s, [(x.pos, .trap r)]) := by
  rw [runSlots_alone h]; simp [runSlot, ho]

theorem runBundle_trap {i : Instr} (hi : NotImx i) {s : State} {r : TrapRec} (ho : slotOp i s.ctx s.issuing = .trap r) :
    s.issuing.runBundle s.cur s.curB s.me.ip s.nextIp (s.bundle i) = .trap r := by
  obtain ⟨a, z, hz, e⟩ := placeSlots_bundle hi s
  have hz : ∀ y ∈ a ++ z, Inert y := hz
  have hc : slotCtx s.issuing s.cur s.curB s.me.ip s.nextIp ⟨i, s.ctx.slot, s.imx⟩ = s.ctx := by
    simp [slotCtx, State.ctx]
  have hr := runSlots_trap (x := ⟨i, s.ctx.slot, s.imx⟩) hz (mk := slotCtx s.issuing s.cur s.curB s.me.ip s.nextIp) (s := s.issuing)
    (r := r) (by rw [hc]; exact ho)
  simp only [State.runBundle, e, hr, steerClash_alone hz]
  rfl

@[simp] theorem Berth.settle_bind (y : Berth) : y.settle.bind = y.bind := by
  obtain ⟨_, _, _, _, _, h⟩ := y.settle_frame; rw [h]

/-- A release is made under the binding of the berth, whatever of its results has landed. -/
theorem Tile.withRelease_settle (x : Tile) (b : Fin 5) (id : Nat) (sc : Scope) :
    (x.setBerth b x.berths[b].settle).withRelease b id sc = (x.withRelease b id sc).setBerth b x.berths[b].settle := by
  have h : (x.setBerth b x.berths[b].settle).berths[b] = x.berths[b].settle := Tile.setBerth_same ..
  unfold Tile.withRelease
  rw [h, Berth.settle_bind]
  rfl

/-- A trap of a job berth. -/
theorem takeTrap_issuing (s : State) {r : TrapRec} (hb : s.curB ≠ 4) : s.issuing.takeTrap s.cur s.curB r = s.trapped r := by
  have ht : s.issuing.tile s.cur = (s.tile s.cur).thaw.setBerth s.curB s.ops := State.tile_setTile_same ..
  have hr := Tile.withRelease_settle (s.tile s.cur).thaw s.curB s.uid .sys
  have e : s.issuing.takeTrap s.cur s.curB r = { s.issuing.setTile s.cur
      ((((s.issuing.tile s.cur).withRelease s.curB s.uid .sys).queued s.curB).setBerth s.curB
        { s.issuing.berth s.cur s.curB with status := .trapSaving, trap := some r }) with uid := s.uid + 1 } := by
    unfold State.takeTrap
    exact if_neg hb
  rw [e, ht, s.berth_issuing]
  have hr' : ((s.tile s.cur).thaw.setBerth s.curB s.ops).withRelease s.curB s.uid .sys
      = ((s.tile s.cur).thaw.withRelease s.curB s.uid .sys).setBerth s.curB s.ops := hr
  rw [hr']
  unfold State.trapped State.withTile State.issuing State.acting
  rw [State.setTile_setTile]
  exact congrArg (fun x : Tile => { s.plain.setTile s.cur x with uid := s.uid + 1 })
    (Tile.setBerth_setBerth (((s.tile s.cur).thaw.withRelease s.curB s.uid .sys).queued s.curB) s.curB s.ops _)

/-- A bundle whose one operation traps in a job berth. -/
theorem traps_of {i : Instr} {s : State} {r : TrapRec} (he : exec i s = issueOne i s) (hi0 : NotImx i) (h : Issues i s)
    (hk : KnownStream i s) (hb : s.curB ≠ 4) (ho : slotOp i s.ctx s.issuing = .trap r) : Traps i s r := by
  have hc := h.passes
  have hn := h.notHeld
  have hl : (s.plain.berth s.cur s.curB).late = false := h.arrived
  have hf : (s.issuing.berth s.cur s.curB).faults = [] := by simp [State.ops, h.noFault]
  have hi : s.plain.setTile s.cur ({ s.plain.tile s.cur with frozen := none }.setBerth s.curB (s.plain.berth s.cur s.curB).settle)
      = s.issuing := rfl
  have key : s.plain.issueBundle s.cur s.curB s.me.ip s.nextIp (.ok (s.bundle i)) = s.issuing.takeTrap s.cur s.curB r := by
    have hrun := runBundle_trap hi0 ho
    unfold State.issueBundle
    simp only [openStreams_bundle hk, hn, hl, hi, hf, hc, hrun, Bool.false_eq_true, if_false]
  unfold Traps
  rw [he]
  refine ((if_pos h.runs).trans (congrArg finish key)).trans ?_
  rw [takeTrap_issuing s hb]
  exact finish_next h.populated

end Sys2Proof.Machine
end

