-- ==== Sys2Proof/Tests/Slice0.lean ====
section
/-!
SUPPORT. Tests/Slice0.lean: the model's own tests: ill-formed terms that `wellFormed` refuses, words written out from the spec's encodings
that decode to their instructions, and, for every obligation with hypotheses, states and operands that meet them.
-/
namespace Sys2Proof.Tests
open Sys2Proof.Machine Sys2Proof.Claims

set_option Elab.async false

/-! ### States for the tests -/

/-- A state in which berth 0 of tile 0 is bound at the start of the window and job 1 runs, with registers written and the tile changed. -/
def demo (gs : List (BitVec 6 × Word)) (g : Tile → Tile := id) : State :=
  let s := State.reset.withFetchWord 32 0
  let y := gs.foldl (fun y r => y.write (.g r.1) (r.2.setWidth 512)) (s.berth 0 0)
  s.setTile 0 (g ((s.tile 0).setBerth 0 y))

/-- A tile with its berth 0 changed. -/
def inBerth (f : Berth → Berth) (x : Tile) : Tile := x.setBerth 0 (f x.berths[0])

/-- The state with its supervisor berth current, as berth 0 is. -/
def atSup (s : State) : State := { s.setBerth 0 4 (s.berth 0 0) with curB := 4 }

/-- An address of the tile's own scratchpad. -/
def W (o : Nat) : Word := BitVec.ofNat 64 (wbase + o)

/-- Whether an instruction issues alone (a check of `Issues`). -/
def issuesNow (i : Instr) (s : State) : Bool :=
  s.berthRuns s.cur s.curB && s.stuck.isNone && !s.plain.bundleHeld s.cur s.curB s.me.ip s.nextIp (s.bundle i) && !s.me.late
    && s.me.faults.isEmpty && (s.issuing.checkBundle s.cur s.curB s.me.ip s.nextIp (s.bundle i)).isNone && s.me.after == .nothing
    && !s.me.returns

theorem issues_now {i : Instr} {s : State} (h : issuesNow i s = true) : Issues i s := by
  simp only [issuesNow, Bool.and_eq_true, Bool.not_eq_true', Option.isNone_iff_eq_none, List.isEmpty_iff, beq_iff_eq] at h
  obtain ⟨⟨⟨⟨⟨⟨⟨h1, h2⟩, h3⟩, h4⟩, h5⟩, h6⟩, h7⟩, h8⟩ := h
  exact ⟨h1, h2, h3, h4, h5, h6, h7, h8⟩

/-- While no channel range stands, the default hash keeps the places of addresses apart. -/
theorem apart_default {s : State} (h : s.ranges = []) : Apart s := by
  have c (a : Nat) : s.channelOf a = (a / 256 % 1024, a / 256 / 1024 * 256 + a % 256) := by simp [State.channelOf, h, hashPlace]
  intro x y e
  simp only [State.cell, c] at e
  split at e <;> split at e <;> omega

/-- A job without watchpoints watches nothing. -/
theorem watch_none {s : State} (h : ∀ kj ∈ s.jobs, kj.2.wp0 = Vector.replicate 8 0) : NoWatch s := by
  intro kj hk a n
  have c : ∀ k < 8, kj.2.wp0.getD k 0#64 = 0#64 := by rw [h kj hk]; decide
  simp only [Job.watchHit, List.find?_eq_none, List.mem_range]
  intro k hk8
  simp [c k hk8, wbit]

/-! ### Ill-formed terms (WellFormed.lean) -/

theorem test_wf_call : wellFormed (.call 0 4) = false := by decide
theorem test_wf_csrr : wellFormed (.csrr 3 .pbub) = false ∧ wellFormed (.csrr 3 .cyc) = true := by decide
theorem test_wf_csrw : wellFormed (.csrw .evctl 3) = false ∧ wellFormed (.csrw .vlt 3) = true := by decide
theorem test_wf_tile : wellFormed (.bundleIssue 1088) = false ∧ wellFormed (.bundleIssue 131072) = false ∧
    wellFormed (.bundleIssue 1087) = true := by decide
theorem test_wf_quay : wellFormed (.walkDone 32 0) = false ∧ wellFormed (.portArbitration 32 none) = false := by decide
theorem test_wf_field : wellFormed (.reachabilitySweep 64) = false := by decide
theorem test_wf_buffer : wellFormed (.resendTimeout 0x7DF 0) = false ∧ wellFormed (.resendTimeout 0x7E0 0) = true := by decide
theorem test_wf_spur : wellFormed (.retentionExpiry 4096 0) = false := by decide
theorem test_wf_job : wellFormed (.scrubDone 0) = false ∧ wellFormed (.scrubDone 4096) = false := by decide
theorem test_wf_home : wellFormed (.homeAccess (.filhusLoad 0 9)) = false ∧
    wellFormed (.homeAccess (.filhus (2 ^ 44 - 1) [0, 0])) = false := by decide

/-! ### Words written out from the encoding tables (R23, R47 to R66) -/

/-- A slot word by its fields: MAJ [30:26], D [25:20], A [19:14], B [13:8] and MIN [7:0] (R23). -/
def word (maj d a b min : Nat) : BitVec 32 := BitVec.ofNat 32 (maj * 2 ^ 26 + d * 2 ^ 20 + a * 2 ^ 14 + b * 2 ^ 8 + min)

/-- A slot word with a 20-bit displacement in [19:0]. -/
def wordDisp (maj d disp : Nat) : BitVec 32 := BitVec.ofNat 32 (maj * 2 ^ 26 + d * 2 ^ 20 + disp)

/-- Whether every word decodes to the instruction beside it. -/
def reads (l : List (BitVec 32 × Instr)) : Bool := l.all fun x => decode x.1 == .ok x.2

/-- Whether every word is refused. -/
def refuses (l : List (BitVec 32)) : Bool := l.all fun w => match decode w with | .ok _ => false | .error _ => true

/-- The words of the spec's decoded bundle and of its further examples. -/
theorem test_decode_examples : reads [(0x445083C2, .ld .w 12 5 2 3), (0x20404600, .add 4 1 6), (0x60304230, .vadd 3 3 1 2), (0x80000000, .nop),
    (0x40701300, .csrr 7 (.fmt 3))] = true ∧ refuses [0x78000000] = true := by decide

/-- CTL (R51, R52): MIN; NOP with another field, and unassigned cells, are refused. -/
theorem test_decode_control : reads [(0, .nop), (word 0 0 5 0 0x01, .jmpi 5), (word 0 0 31 0 0x02, .ret 31), (0x03, .yield), (0x04, .done),
    (word 0 0 1 0 0x05, .trap 1), (word 0 0 3 9 0x06, .kchain 3 9), (word 0 0 3 9 0x10, .sys 3 9), (word 0 0 7 0 0x11, .brk 7), (0x12, .wfe),
    (0x18, .eret), (word 0 0 3 9 0x19, .tlbi 3 9), (word 0 0 3 0 0x1A, .tpre 3), (0x1B, .halt)] = true ∧
    refuses [word 0 0 0 1 0, word 0 1 0 0 0, 0x07, 0x0F, 0x13, 0x1C, word 0 0 1 0 0x03, word 0 0 1 1 0x05] = true := by decide

/-- The branches (R47, R54): the displacement in [19:0], the condition in D[25:24], the predicate in D[23:20]. -/
theorem test_decode_branches : reads [(wordDisp 1 0 0xFFFFC, .br 0xFFFFC), (wordDisp 1 31 8, .call 31 8), (wordDisp 2 0 0x12345, .jmp 0x12345),
    (wordDisp 3 9 4, .brnZ 9 4), (wordDisp 4 9 4, .brnNz 9 4), (wordDisp 5 0x07 4, .brnP .p 7 4), (wordDisp 5 0x1F 4, .brnP .np 15 4),
    (wordDisp 5 0x22 4, .brnP .any 2 4), (wordDisp 5 0x31 4, .brnP .none 1 4), (wordDisp 6 12 0x20, .loop 12 0x20),
    (wordDisp 7 63 0x20, .loopi 63 0x20)] = true ∧ refuses [wordDisp 2 1 0] = true := by decide

/-- ALU (R55): MIN 0x00 to 0x24 in the order of the table. -/
theorem test_decode_alu : reads [(word 8 4 1 6 0x00, .add 4 1 6), (word 8 4 1 6 0x01, .sub 4 1 6), (word 8 4 1 6 0x02, .mul 4 1 6),
    (word 8 4 1 6 0x03, .mulh 4 1 6), (word 8 4 1 6 0x04, .mulhu 4 1 6), (word 8 4 1 6 0x05, .div 4 1 6), (word 8 4 1 6 0x06, .divu 4 1 6),
    (word 8 4 1 6 0x07, .rem 4 1 6), (word 8 4 1 6 0x08, .remu 4 1 6), (word 8 4 1 6 0x09, .and 4 1 6), (word 8 4 1 6 0x0A, .or 4 1 6),
    (word 8 4 1 6 0x0B, .xor 4 1 6), (word 8 4 1 6 0x0C, .andn 4 1 6), (word 8 4 1 6 0x0D, .sll 4 1 6), (word 8 4 1 6 0x0E, .srl 4 1 6),
    (word 8 4 1 6 0x0F, .sra 4 1 6), (word 8 4 1 6 0x10, .ror 4 1 6), (word 8 4 1 0 0x11, .clz 4 1), (word 8 4 1 0 0x12, .ctz 4 1),
    (word 8 4 1 0 0x13, .popc 4 1), (word 8 4 1 6 0x14, .min 4 1 6), (word 8 4 1 6 0x15, .max 4 1 6), (word 8 4 1 6 0x16, .minu 4 1 6),
    (word 8 4 1 6 0x17, .maxu 4 1 6), (word 8 4 1 6 0x18, .slt 4 1 6), (word 8 4 1 6 0x19, .sltu 4 1 6)] = true ∧
    reads [(word 8 4 1 6 0x1A, .sel 4 1 6), (word 8 4 1 6 0x1B, .ext 4 1 6), (word 8 4 1 6 0x1C, .extu 4 1 6), (word 8 4 1 6 0x1D, .ins 4 1 6),
    (word 8 4 1 6 0x1E, .madd 4 1 6), (word 8 4 1 0 0x1F, .mov 4 1), (word 8 40 3 0 0x20, .xmov 40 3), (word 8 4 1 63 0x21, .sllImm 4 1 63),
    (word 8 4 1 7 0x22, .srlImm 4 1 7), (word 8 4 1 7 0x23, .sraImm 4 1 7), (word 8 4 1 7 0x24, .rorImm 4 1 7)] = true ∧
    refuses [word 8 4 1 0 0x25, word 8 4 1 6 0x13, word 8 4 1 6 0x1F] = true := by decide

/-- The immediate forms and IMX (R23, R28, R47): the immediate in [13:0]. -/
theorem test_decode_immediate : reads [(word 9 3 1 0x3F 0xFB, .addi 3 1 0x3FFB), (word 10 3 1 0x12 0x34, .andi 3 1 0x1234),
    (word 11 3 1 0 5, .ori 3 1 5), (word 12 3 1 0 5, .xori 3 1 5), (word 13 3 0 0x20 1, .lui 3 0x2001), (word 14 3 0 0x3F 0xF0, .addpc 3 0x3FF0),
    (0x7C000000 + 0x2ABCDEF, .imx 0x2ABCDEF)] = true ∧ refuses [word 13 3 1 0 1, word 14 3 1 0 1] = true := by decide

/-- FLT (R56): op in MIN[7:4], format in MIN[3], sub-op in MIN[2:0]. -/
theorem test_decode_float : reads [(word 15 4 1 6 0x00, .fadd .f32 4 1 6), (word 15 4 1 6 0x18, .fsub .f64 4 1 6), (word 15 4 1 6 0x20, .fmul .f32 4 1 6),
    (word 15 4 1 6 0x38, .ffma .f64 4 1 6), (word 15 4 1 6 0x40, .fdiv .f32 4 1 6), (word 15 4 1 0 0x58, .fsqrt .f64 4 1),
    (word 15 4 1 6 0x60, .fmin .f32 4 1 6), (word 15 4 1 6 0x78, .fmax .f64 4 1 6), (word 15 4 1 6 0x80, .fcmp .eq .f32 4 1 6),
    (word 15 4 1 6 0x89, .fcmp .lt .f64 4 1 6), (word 15 4 1 6 0x82, .fcmp .le .f32 4 1 6), (word 15 4 1 6 0x8B, .fcmp .un .f64 4 1 6),
    (word 15 4 1 0 0x90, .fcvt .other .f32 4 1), (word 15 4 1 0 0x99, .fcvt .i64 .f64 4 1), (word 15 4 1 0 0x92, .fcvt .ui64 .f32 4 1),
    (word 15 4 1 0 0x9B, .fcvt .fi64 .f64 4 1), (word 15 4 1 0 0x94, .fcvt .fui64 .f32 4 1), (word 15 4 1 0 0x9D, .fcvt .bf16 .f64 4 1),
    (word 15 4 1 0 0x96, .fcvt .fp16 .f32 4 1), (word 15 4 1 0 0xA0, .fabs .f32 4 1), (word 15 4 1 0 0xB8, .fneg .f64 4 1)] = true ∧
    refuses [word 15 4 1 6 0xC0, word 15 4 1 6 0x01, word 15 4 1 6 0x84, word 15 4 1 0 0x97, word 15 4 1 6 0x50] = true := by decide

/-- CSR (R53, R66, R120, R328, R351, R416): the register's number in [19:8], read with MIN 0 and written with MIN 1. -/
theorem test_decode_special : reads [(0x40110100, .csrr 1 .scause), (word 16 7 0 0 0, .csrr 7 .tag), (word 16 7 0 6 0, .csrr 7 (.lc 2)),
    (word 16 7 0 8 1, .csrw .fflags 7), (word 16 7 0 0x1F 1, .csrwFmt 15 7), (word 16 7 0 0x22 1, .csrwShape 2 7), (word 16 7 1 0x08 1, .csrwCctl 1 7),
    (word 16 7 1 0x1D 0, .csrr 7 (.cemit 3)), (word 16 7 1 0x20 1, .csrwEvctl 7), (word 16 7 1 0x24 0, .csrrRsc 7 .evans),
    (word 16 7 1 0x2A 1, .csrw (.evwl 1) 7), (word 16 7 1 0x2F 1, .csrwEvwh 3 7), (word 16 7 2 0x00 0, .csrrRsc 7 .pbub), (word 16 7 2 0x04 0, .csrr 7 .cyc),
    (word 16 7 2 0x21 0, .csrr 7 .enfld), (word 16 7 4 0x06 0, .csrr 7 .sstat), (word 16 7 6 0x04 0, .csrr 7 .ewpos)] = true ∧
    refuses [word 16 7 0 0x0B 0, word 16 7 1 0x06 0, word 16 7 1 0x25 0, word 16 7 2 0x06 0, word 16 7 4 0x07 0, word 16 7 6 0x05 0, word 16 7 0 0 2] = true := by
  decide

/-- LS, LSX, VMEM and ORD (R24, R57 to R59): LAND in MIN[7:4], the kind in MIN[3:0], the offset or the index in [13:8]. -/
theorem test_decode_memory : reads [(word 17 6 1 0x3F 0x40, .ld .b 4 6 1 0x3F), (word 17 6 1 2 0x44, .ld .q 4 6 1 2), (word 18 6 1 2 0x43, .ldIndexed .d 4 6 1 2),
    (word 17 6 1 2 0x46, .lds .h 4 6 1 2), (word 18 6 1 2 0x47, .ldsIndexed .w 4 6 1 2), (word 17 6 1 2 0x0A, .st .w 6 1 2), (word 17 6 1 2 0x0C, .st .q 6 1 2),
    (word 18 6 1 2 0x08, .stIndexed .b 6 1 2), (word 17 6 1 2 0x4D, .tagld 4 6 1 2), (word 17 6 1 2 0x0E, .tagst 6 1 2), (word 17 6 1 2 0x0F, .mcst 6 1 2),
    (word 19 6 1 2 0x40, .ldv 4 6 1 2), (word 19 31 1 2 0x01, .stv 31 1 2), (word 19 6 1 2 0x42, .ldx 4 6 1 2), (word 19 6 1 2 0x03, .stx 6 1 2),
    (word 20 6 1 2 0x41, .ldDAcq .tile 4 6 1 2), (word 20 6 1 2 0x0D, .stDRel .sys 6 1 2)] = true ∧
    refuses [word 17 6 1 2 0x1A, word 18 6 1 2 0x4D, word 19 32 1 2 0x40, word 19 6 1 2 0x44, word 20 6 1 2 0x46, word 20 6 1 2 0x0F] = true := by decide

/-- AMO, AMOS and MSYS (R60, R61). -/
theorem test_decode_atomic : reads [(word 21 9 1 2 0x40, .amo .add .w 4 9 1 2), (word 21 9 1 2 0x4F, .amo .cas .d 4 9 1 2), (word 21 9 1 2 0x4C, .amo .swp .w 4 9 1 2),
    (word 22 9 1 2 0xF7, .amos .cas .sys .ar 9 1 2), (word 22 9 1 2 0x25, .amos .min .tile .acq 9 1 2), (word 22 9 1 2 0x02, .amos .add .berth .rel 9 1 2),
    (word 23 0 0 0 0x04, .fence .wafer), (word 23 0 0 0 0x08, .vjoin), (word 23 0 1 0 0x09, .pref 1), (word 23 0 1 2 0x12, .flush .spur 1 2),
    (word 23 0 1 2 0x1D, .inval .sys 1 2), (word 23 0 1 2 0x20, .red .add .w 1 2), (word 23 0 1 2 0x25, .red .max .d 1 2),
    (word 23 0 1 2 0x2B, .red .xor .d 1 2)] = true ∧
    refuses [word 22 9 1 2 0x24, word 22 9 1 2 0x19, word 23 0 0 0 0x06, word 23 0 1 2 0x2C, word 23 1 1 2 0x20, word 23 0 0 0 0x0A] = true := by decide

/-- VA, VB and VC (R62): the predicate in MIN[7:4], the op in MIN[3:0]. -/
theorem test_decode_vector : reads [(word 24 3 1 2 0x30, .vadd 3 3 1 2), (word 24 3 1 2 0x31, .vsub 3 3 1 2), (word 24 3 1 2 0x32, .vmul 3 3 1 2),
    (word 24 3 1 2 0x33, .vfma 3 3 1 2), (word 24 3 1 2 0x34, .vmin 3 3 1 2), (word 24 3 1 2 0x35, .vmax 3 3 1 2), (word 24 3 1 0 0x36, .vabs 3 3 1),
    (word 24 3 1 0 0x37, .vneg 3 3 1), (word 24 3 1 2 0x38, .vdiv 3 3 1 2), (word 24 3 1 0 0x39, .vsqrt 3 3 1), (word 24 3 1 0 0x3A, .vrcp 3 3 1),
    (word 24 3 1 0 0x3B, .vrsq 3 3 1), (word 24 3 1 0 0x3C, .vexp 3 3 1), (word 24 3 1 0 0x3D, .vlog 3 3 1), (word 24 3 1 2 0x3E, .vsel 3 3 1 2),
    (word 24 3 1 0 0x3F, .vcvt 3 3 1)] = true ∧
    reads [(word 25 3 1 2 0x30, .vand 3 3 1 2), (word 25 3 1 2 0x31, .vor 3 3 1 2), (word 25 3 1 2 0x32, .vxor 3 3 1 2),
    (word 25 3 1 2 0x33, .vshl 3 3 1 2), (word 25 3 1 2 0x34, .vshr 3 3 1 2), (word 25 3 1 2 0x35, .vsra 3 3 1 2), (word 25 3 1 2 0x36, .vreds 3 3 1 2),
    (word 25 3 1 2 0x37, .vredmMax 3 3 1 2), (word 25 3 1 2 0x38, .vredmMin 3 3 1 2), (word 25 3 1 0 0x39, .vscan 3 3 1), (word 25 3 1 0 0x3A, .vpopc 3 3 1),
    (word 25 3 0 0 0x3B, .viota 3 3), (word 25 5 1 2 0x3C, .vcmpEq 3 5 1 2), (word 25 5 1 2 0x3D, .vcmpNe 3 5 1 2), (word 25 5 1 2 0x3E, .vcmpLt 3 5 1 2),
    (word 25 5 1 2 0x3F, .vcmpLe 3 5 1 2)] = true ∧
    reads [(word 26 3 1 2 0x30, .vperm 3 3 1 2), (word 26 3 1 2 0x31, .vshuf 3 3 1 2), (word 26 1 0 0x16 0x02, .vbcast 0 1 0x16), (word 26 3 1 2 0x33, .vpln 3 3 1 2),
    (word 26 3 1 2 0x34, .vplj 3 3 1 2), (word 26 3 1 2 0x05, .vmovsG 3 1 2), (word 26 3 1 2 0x06, .vmovsV 3 1 2)] = true ∧
    refuses [word 24 32 1 2 0, word 25 3 1 1 0x39, word 26 3 1 2 0x15, word 26 3 1 2 0x07, word 25 0x10 1 2 0x3C] = true := by decide

/-- MAC (R63): the op in MIN[7:3], the variant in MIN[2:0], the handle in [22:20] or in A[16:14]. -/
theorem test_decode_macro : reads [(word 27 2 9 0 0x00, .tlw .bf16 2 9), (word 27 2 9 0 0x09, .tmm .fp16 2 9), (word 27 2 9 0 0x12, .tmmg .fp32 2 9),
    (word 27 2 9 0 0x1A, .trank .fp32 2 9), (word 27 2 9 0 0x23, .tspz .ft 2 9), (word 27 2 9 0 0x2C, .tdr .f0 2 9), (word 27 2 9 0 0x30, .tz 2 9),
    (word 27 2 9 0 0x38, .tshape 2 9), (word 27 2 9 0 0x45, .gath .e64 2 9), (word 27 2 9 0 0x48, .scat .e1 2 9), (word 27 2 9 0 0x51, .copy .e2 2 9),
    (word 27 2 9 0 0x5A, .copy2 .e4 2 9), (word 27 2 9 8 0x64, .setm .e16 2 9 8), (word 27 2 9 0 0x6C, .qfence .wafer 2 9), (word 27 2 0 0 0x70, .mwait 2),
    (word 27 9 2 0 0x78, .mprg 9 2), (word 27 9 2 0 0x80, .mstat 9 2), (word 27 2 9 0 0x88, .mres 2 9), (word 27 2 0 0 0x90, .mkill 2)] = true ∧
    refuses [word 27 2 9 0 0x98, word 27 2 9 0 0x05, word 27 2 9 0 0x1B, word 27 2 9 0 0x6E, word 27 8 9 0 0, word 27 9 8 0 0x78, word 27 2 9 0 0x31] = true := by
  decide

/-- NET and TASK (R50, R64): LAND in MIN[7:4], the op in MIN[3:0]. -/
theorem test_decode_network : reads [(word 28 3 4 5 0x00, .pub 3 4 5), (word 28 3 4 5 0x31, .subNet 3 3 4 5), (word 28 3 4 5 0x32, .unsub 3 3 4 5),
    (word 28 3 4 5 0x03, .steer 3 4 5), (word 28 3 4 5 0x04, .merge 3 4 5), (word 28 0 4 0 0x05, .stsnap 4), (word 28 3 4 5 0x06, .send 3 4 5),
    (word 28 0 4 5 0x07, .grant 4 5), (word 28 0 4 0 0x08, .arrive 4), (word 29 3 4 5 0x30, .frame 3 3 4 5), (word 29 3 4 5 0x01, .fslot 3 4 5),
    (word 29 0 4 5 0x02, .spawn 4 5), (word 29 3 4 5 0x33, .tagop 3 3 4 5), (word 29 0 4 5 0x04, .evcfgPset 4 5), (word 29 3 4 5 0x05, .evpost 3 4 5),
    (word 29 3 4 0 0x36, .evrd 3 3 4), (word 29 0 4 5 0x07, .evsnap 4 5), (word 29 0 4 0 0x08, .evtick 4)] = true ∧
    refuses [word 28 3 4 5 0x09, word 28 3 4 5 0x10, word 29 3 4 5 0x02, word 29 3 4 5 0x36, word 29 3 4 5 0x0F] = true := by decide

/-! ### States and operands that meet the hypotheses of the obligations: registers, landing, issue -/

theorem witness_landing_visible : ({} : Berth).landing = [] ∧ 1 ≤ 2 ∧ ([0] : List Word).length < 2 ∧ 2 ≤ ([0, 4] : List Word).length := by
  decide +kernel
theorem witness_landing_order : ({} : Berth).landing = [] ∧ (3 : BitVec 6) ≠ 0 ∧ ([] : List Word).length < 5 ∧ 5 ≤ ([] : List Word).length + 5 ∧
    ([] : List Word).length + 1 < 5 ∧ 1 ≤ ([0] : List Word).length ∧ ([] : List Word).length + ([0] : List Word).length < 5 ∧
    5 ≤ ([] : List Word).length + ([0, 0, 0, 0, 0] : List Word).length := by decide +kernel

/-- The state in which the step runs one ADD, fetched. -/
def fetched : State := State.reset.withFetchWord 32 0x20404600

theorem witness_step_fetch : fetched.schedule = [] ∧ fetched.imx = none ∧ fetched.coreRuns fetched.cur = true ∧ (fetched.tile fetched.cur).bubbles = 0 ∧
    (fetched.tile fetched.cur).frozen = none ∧ (∀ b, (fetched.berth fetched.cur b).resume = []) ∧ (fetched.berth fetched.cur 4).returning = none ∧
    (selectOrder (fetched.tile fetched.cur).lastBerth).find? (fun c => (cycling fetched).issuable fetched.cur c) = some 0 ∧
    (match (cycling fetched).fetchBundle fetched.cur 0 ((cycling fetched).berth fetched.cur 0).ip with
      | .ok ws => ws == [0x20404600, 0, 0, 0x80000000] | .error _ => false) = true ∧
    decode 0x20404600 = .ok (.add 4 1 6) := by decide +kernel
theorem witness_step_schedule : ({ State.reset with schedule := [.tick] }).schedule = [.tick] ∧ State.reset.schedule = [] ∧
    State.reset.coreRuns 0 = false := by decide +kernel
theorem witness_step_bubble : let s := demo [] (fun x => { x with bubbles := 2 })
    s.stuck = none ∧ s.coreRuns s.cur = true ∧ (∀ b, (s.berth s.cur b).resume = []) ∧ (s.berth s.cur 4).returning = none ∧ 0 < (s.tile s.cur).bubbles := by
  decide +kernel
/-- A berth frozen by a result that is absent. -/
def waiting : Berth → Berth := fun y => { y with landing := [{ dest := .g 3, pos := y.pos, data := 0, flags := 0, wait := .memory 7 0 4 false, buffered := false }] }
theorem witness_step_frozen : let s := demo [] (fun x => { inBerth waiting x with frozen := some 0 })
    s.stuck = none ∧ s.coreRuns s.cur = true ∧ (s.tile s.cur).bubbles = 0 ∧ (s.tile s.cur).frozen = some 0 ∧ (s.tile s.cur).berths[0].status = .bound ∧
    (s.tile s.cur).berths[0].late = true ∧ (∀ b, (s.berth s.cur b).resume = []) ∧ (s.berth s.cur 4).returning = none := by decide +kernel

theorem witness_decode_encode : wellFormed (.add 4 1 6) = true ∧ encode (.add 4 1 6) = some 0x20404600 ∧ decode 0x20404600 = .ok (.add 4 1 6) ∧
    encode (.imx 5) = some 0x7C000005 := by decide +kernel
theorem witness_lone_bundle : let s := demo []
    s.imx = none ∧ (form (.ld .q 4 6 1 0)).clusterOk = true ∧ (form (.ld .q 4 6 1 0)).land ≠ some 0 ∧ (form (.ld .q 4 6 1 0)).odd = true ∧
    (6 : BitVec 6).toNat % 2 = 0 ∧ s.me.xfer = none ∧ (form .eret).noDelay = true ∧ (form (.br 0)).transfer = true ∧ s.me.loops = [] ∧
    (form .eret).sup = true ∧ (atSup s).curB = 4 := by decide +kernel

/-! ### Scalar instructions, transfers, loops -/

/-- A state with operands in g1, g6 and a floating format. -/
def scalars : State := demo [(1, 0xFFFFFFFFFFFFFFFB), (6, 7), (9, 0x40490FDB)]

theorem witness_integer : ∀ i ∈ [Instr.add 4 1 6, .madd 4 1 6, .sraImm 4 1 63, .xmov 40 1, .addi 4 1 0x3FFB, .addpc 4 0x3FF0],
    (scalarResult scalars.ops scalars.me.ip (immediate scalars.imx) i).isSome = true ∧ Issues i scalars := by
  intro i h
  fin_cases h <;> exact ⟨by decide +kernel, issues_now (by decide +kernel)⟩
theorem witness_division : divideResult scalars.ops (.div 4 1 6) = some (4, 0, 0) ∧ Issues (.div 4 1 6) scalars ∧
    divideResult scalars.ops (.remu 4 6 2) = some (4, 7, 0x20) ∧ Issues (.remu 4 6 2) scalars :=
  ⟨by decide +kernel, issues_now (by decide +kernel), by decide +kernel, issues_now (by decide +kernel)⟩
theorem witness_bit_counts : Issues (.clz 4 1) scalars ∧ Issues (.ctz 4 1) scalars ∧ Issues (.popc 4 1) scalars :=
  ⟨issues_now (by decide +kernel), issues_now (by decide +kernel), issues_now (by decide +kernel)⟩
theorem witness_fields : Issues (.ext 4 1 6) scalars ∧ Issues (.extu 4 1 6) scalars ∧ Issues (.ins 4 1 6) scalars :=
  ⟨issues_now (by decide +kernel), issues_now (by decide +kernel), issues_now (by decide +kernel)⟩
theorem witness_float : (floatResult scalars.ops (.fadd .f32 4 9 9)).isSome = true ∧ Issues (.fadd .f32 4 9 9) scalars ∧
    (floatResult scalars.ops (.fcvt .fi64 .f64 4 1)).isSome = true ∧ Issues (.fcvt .fi64 .f64 4 1) scalars :=
  ⟨by decide +kernel, issues_now (by decide +kernel), by decide +kernel, issues_now (by decide +kernel)⟩
theorem witness_transfers : (transferResult scalars.ops scalars.me.ip (.brnNz 6 8)).isSome = true ∧ Issues (.brnNz 6 8) scalars ∧
    (transferResult scalars.ops scalars.me.ip (.ret 6)).isSome = true ∧ Issues (.ret 6) scalars ∧ Issues (.call 4 8) scalars ∧
    ({} : Berth).after = .nothing ∧ ({} : Berth).loops = [] :=
  ⟨by decide +kernel, issues_now (by decide +kernel), by decide +kernel, issues_now (by decide +kernel), issues_now (by decide +kernel), by decide, by decide⟩
theorem witness_loops : loopOf scalars.ops scalars.me.ip (.loop 6 0x40) = some (7, displaced scalars.me.ip 0x40) ∧
    loopLegal scalars.ops.loops scalars.nextIp (displaced scalars.me.ip 0x40) ∧ Issues (.loop 6 0x40) scalars ∧
    loopOf scalars.ops scalars.me.ip (.loop 2 0x40) = some (0, displaced scalars.me.ip 0x40) ∧ Issues (.loop 2 0x40) scalars :=
  ⟨by decide +kernel, ⟨by decide +kernel, by decide +kernel, fun l r h => absurd h (by rw [show scalars.ops.loops = [] by decide +kernel]; simp), by decide +kernel⟩,
    issues_now (by decide +kernel), by decide +kernel, issues_now (by decide +kernel)⟩
theorem witness_loop_end : let y : Berth := { loops := [{ start := 4, exit := 64, count := 2, lc := 0 }] }
    let z : Berth := { loops := [{ start := 4, exit := 64, count := 1, lc := 1 }] }
    y.after = .nothing ∧ y.xfer = none ∧ y.loops = [{ start := 4, exit := 64, count := 2, lc := 0 }] ∧ (32 : Word) ≠ 64 ∧ (2 : Word) ≠ 1 ∧
    z.loops = [{ start := 4, exit := 64, count := 1, lc := 1 }] := by decide +kernel

/-! ### Special registers, chains, the bank, control -/

/-- A template with two slots to fill and one that takes an index. -/
def tmpl0 : Tmpl :=
  { entry := 0x40, req := 3, nslot := 4, urg := true, ecls := 1, kinds := 0x2210, fmt := none, shape := none, subs := [], list := [0, 3],
    dbase := 0x2000, cap := 4, dstr := 64 }

/-- The state with job 1's template table. -/
def withTmpl (s : State) : State := s.setJob 1 { s.job 1 with tmpls := [tmpl0], slist := [40, 41, 2050] }

theorem witness_special_reads : Issues (.csrr 4 .enfld) scalars ∧ Issues (.csrrRsc 4 .evans) scalars ∧ Issues (.csrr 4 (.lc 3)) scalars :=
  ⟨issues_now (by decide +kernel), issues_now (by decide +kernel), issues_now (by decide +kernel)⟩
theorem witness_special_writes : let s := demo [(1, 63), (6, 64)]
    Issues (.csrw .fflags 1) s ∧ (specialWrite (s.tile s.cur) s.ops (s.ops.rg 1) .fflags).isSome = true ∧ s.curB ≠ 4 ∧
    Issues (.csrw .fflags 6) s ∧ (specialWrite (s.tile s.cur) s.ops (s.ops.rg 6) .fflags).isNone = true :=
  ⟨issues_now (by decide +kernel), by decide +kernel, by decide +kernel, issues_now (by decide +kernel), by decide +kernel⟩
theorem witness_table_writes : let s := demo [(1, 3), (6, 0x7FF), (7, 0x000300040005), (8, 0x000600040005)]
    Issues (.csrwFmt 3 1) s ∧ Issues (.csrwFmt 3 6) s ∧ ¬formatWord 0x7FF ∧ Issues (.csrwShape 3 7) s ∧ shapeWord 0x000300040005 ∧
    Issues (.csrwShape 3 8) s ∧ ¬shapeWord 0x000600040005 :=
  ⟨issues_now (by decide +kernel), issues_now (by decide +kernel), by unfold formatWord; decide +kernel, issues_now (by decide +kernel),
    by unfold shapeWord; decide +kernel, issues_now (by decide +kernel), by unfold shapeWord; decide +kernel⟩
theorem witness_chain_control : let s := demo [(1, 0x207)] (fun x => { x with chains := x.chains.set 1 { x.chains[1] with run := true } })
    Issues (.csrwCctl 0 1) s ∧ s.ops.rg 1 &&& 0xFFFFFFFFFFFFF1C0 = 0 ∧ (s.tile s.cur).chains[0].run = false ∧ Issues (.csrwCctl 1 1) s ∧
    (s.tile s.cur).chains[1].run = true ∧ (s.ops.rg 1).getLsbD 9 = true ∧ Issues (.csrwCctl 1 2) s ∧ (s.ops.rg 2).getLsbD 9 = false :=
  ⟨issues_now (by decide +kernel), by decide +kernel, by decide +kernel, issues_now (by decide +kernel), by decide +kernel, by decide +kernel,
    issues_now (by decide +kernel), by decide +kernel⟩
theorem witness_bank_control : let s := demo [(1, 3), (6, 8000 + 192 * 2 ^ 13), (7, 8000 + 193 * 2 ^ 13), (8, 2 ^ 27)]
    Issues (.csrwEvctl 1) s ∧ (s.ops.rg 1).toNat < 4 ∧ Issues (.csrwEvwh 2 6) s ∧ (s.ops.rg 6).toNat < 2 ^ 27 ∧
    ((s.ops.rg 6).extractLsb' 0 13).toNat + ((s.ops.rg 6).extractLsb' 13 14).toNat ≤ 8192 ∧ Issues (.csrwEvwh 2 7) s ∧
    8192 < ((s.ops.rg 7).extractLsb' 0 13).toNat + ((s.ops.rg 7).extractLsb' 13 14).toNat ∧ Issues (.csrwEvwh 2 8) s ∧ 2 ^ 27 ≤ (s.ops.rg 8).toNat :=
  ⟨issues_now (by decide +kernel), by decide +kernel, issues_now (by decide +kernel), by decide +kernel, by decide +kernel, issues_now (by decide +kernel),
    by decide +kernel, issues_now (by decide +kernel), by decide +kernel⟩
theorem witness_chain_start : let s := withTmpl (demo [(1, 0), (6, 5)] (fun x => { x with chains := x.chains.set 0 { x.chains[0] with islot := 2 } }))
    Issues (.kchain 1 6) s ∧ (s.tile s.cur).chains[0].run = false ∧ s.tmpl s.cur (s.tile s.cur).chains[0].ctmpl = some tmpl0 ∧ 2 < tmpl0.nslot.toNat ∧
    tmpl0.list ≠ [] ∧ tmpl0.kind 2 = 2 :=
  ⟨issues_now (by decide +kernel), by decide +kernel, by decide +kernel, by decide +kernel, by decide +kernel, by decide +kernel⟩
theorem witness_control : let s := demo [] (inBerth fun y => { y with latch := true })
    Issues .nop s ∧ s.imx = none ∧ Issues .wfe s ∧ s.notices = [] ∧ Issues .eret (atSup s) ∧ s.curB ≠ 4 ∧ Issues (.trap 1) s ∧ Issues (.brk 1) s ∧
    Issues .halt (atSup s) ∧ Issues (.trap 1) (atSup s) ∧ (atSup s).curB = 4 ∧ ((atSup s).tile 0).handling = none :=
  ⟨issues_now (by decide +kernel), by decide +kernel, issues_now (by decide +kernel), by decide +kernel, issues_now (by decide +kernel), by decide +kernel,
    issues_now (by decide +kernel), issues_now (by decide +kernel), issues_now (by decide +kernel), issues_now (by decide +kernel), by decide +kernel,
    by decide +kernel⟩
theorem witness_done : let s := demo []
    s.curB ≠ 4 ∧ Issues .done s ∧ (s.tile s.cur).subs = [] ∧ (s.tile s.cur).spawns = [] ∧ Issues .yield s :=
  ⟨by decide +kernel, issues_now (by decide +kernel), by decide +kernel, by decide +kernel, issues_now (by decide +kernel)⟩

/-- A service queue at 0x4000 with a ring of 4 records at 0x8000. -/
def withQueue (s : State) : State := (s.setJob 1 { s.job 1 with sq := 0x4000 }).pwrite 0x4000 (leBytes 8 0x8000 ++ leBytes 8 2 ++ leBytes 8 0)

theorem witness_service : let s := withQueue (demo [])
    Issues (.sys 1 2) s ∧ (s.issuing.postQueue (s.jobOf s.cur).sq { s.bindRec s.cur s.curB 0x30 with w4 := s.ops.rg 1, w5 := s.ops.rg 2 }).stuck = none ∧
    Apart s ∧ s.queueRoom 0x4000 = true ∧ populatedRun 0x4000 64 = true ∧ (s.pw 0x4000).toNat = 0x8000 ∧ (s.pw 0x4010).toNat = 0 ∧
    populatedRun 0x8000 64 = true :=
  ⟨issues_now (by decide +kernel), by decide +kernel, apart_default (by decide +kernel), by decide +kernel, by decide +kernel, by decide +kernel,
    by decide +kernel, by decide +kernel⟩
theorem witness_invalidate : let s := demo [(1, 0x50000), (6, 2)]
    Issues (.tlbi 1 6) (atSup s) ∧ (s.ops.rg 6).toNat < 4 ∧ Issues (.tpre 6) (atSup s) ∧ (atSup s).curB = 4 ∧ ((atSup s).berth 0 2).status ≠ .bound ∧
    Issues (.tpre 2) (atSup s) ∧ (s.ops.rg 2).toNat % 4 = 0 ∧ ((atSup s).berth 0 0).status = .bound :=
  ⟨issues_now (by decide +kernel), by decide +kernel, issues_now (by decide +kernel), by decide +kernel, by decide +kernel, issues_now (by decide +kernel),
    by decide +kernel, by decide +kernel⟩

/-! ### Checks of the premises of the memory, vector, macro and task statements -/

/-- A check of `OwnRun`. -/
def ownRun (s : State) (ea : Word) (n off : Nat) (aligned : Bool) : Bool :=
  decide (ea.toNat = wbase + off) && decide (off + n ≤ frameBase) && (!aligned || off % n == 0) && (s.tile s.cur).marks.isEmpty

theorem own_run {s : State} {ea : Word} {n off : Nat} {al : Bool} (h : ownRun s ea n off al = true) : OwnRun s ea n off al := by
  simp only [ownRun, Bool.and_eq_true, decide_eq_true_eq, Bool.or_eq_true, Bool.not_eq_true', beq_iff_eq, List.isEmpty_iff] at h
  obtain ⟨⟨⟨h1, h2⟩, h3⟩, h4⟩ := h
  exact ⟨h1, h2, fun e => h3.resolve_left (by simp [e]), h4⟩

/-- A check of `Unwatched`. -/
def unwatched (s : State) (off n : Nat) : Bool := (List.range n).all fun k => ((s.jobOf s.cur).watchHit false (off + k) 1).isNone

theorem un_watched {s : State} {off n : Nat} (h : unwatched s off n = true) : Unwatched s off n := by
  simpa [unwatched, Unwatched] using h

/-- A check that an access to global memory passes every check. -/
def globalRun (s : State) (ea : Word) (n : Nat) (k : Access) : Bool :=
  (match s.ctx.check s.issuing ea n k with | .ok ps => !ps.isEmpty | .error _ => false) && !eaWindow ea

theorem global_run {s : State} {ea : Word} {n : Nat} {k : Access} (h : globalRun s ea n k = true) : ∃ ps, GlobalRun s ea n k ps := by
  simp only [globalRun, Bool.and_eq_true, Bool.not_eq_true'] at h
  obtain ⟨h1, h2⟩ := h
  split at h1
  · rename_i ps e
    exact ⟨ps, e, by simpa using h1, h2⟩
  · simp at h1

/-- Whether an access passes every check, in the scratchpad or in global memory. -/
def passes (s : State) (ea : Word) (n : Nat) (k : Access) : Bool := match s.ctx.check s.issuing ea n k with | .ok _ => true | .error _ => false

/-- A check of `passesDesc`. -/
def descPasses (k : DescCheck) : Bool := k.words.all id && k.ranges.all (fun r => decide (r.2 ≤ padSize)) && k.aligns.all fun a => a.1 % a.2 == 0

theorem desc_passes {k : DescCheck} (h : descPasses k = true) : passesDesc k := by
  simpa [descPasses, passesDesc, and_assoc] using h

/-- Words as bytes. -/
def words (ws : List Nat) : List Byte := ws.flatMap (leBytes 8)

/-- The demo state with a scratchpad run at 0x1000, page 5 (plain) and page 6 (tagged) of global memory at 0x90000 and 0xA0000, g1 pointing at
the run and g8 into the page. -/
def loaded (ws : List Nat) (gs : List (BitVec 6 × Word)) (g : Tile → Tile := id) : State :=
  demo ([(1, W 0x1000), (8, 0x50040), (9, 0x60040)] ++ gs) fun x => g { x with
    pad := x.pad.writeBytes 0x1000 (words ws)
    tlb := [{ job := 1, page := 5, bits := 16, leaf := 0x90007 }, { job := 1, page := 6, bits := 16, leaf := 0xA0087 }] }

/-! ### Memory -/

theorem witness_loads : let s := loaded [5, 6, 7] [(5, 8)]
    (loadForm s.ops s.imx (.ld .q 4 6 1 1)).isSome = true ∧ issuesNow (.ld .q 4 6 1 1) s = true ∧ ownRun s (W 0x1010) 16 0x1010 false = true ∧
    (loadForm s.ops s.imx (.ldx 4 6 1 0)).isSome = true ∧ issuesNow (.ldx 4 6 1 0) s = true ∧ ownRun s (W 0x1000) 64 0x1000 true = true ∧
    (loadForm s.ops s.imx (.ldsIndexed .h 4 6 8 5)).isSome = true ∧ issuesNow (.ldsIndexed .h 4 6 8 5) s = true ∧
    globalRun s 0x50048 2 { write := false } = true := by decide +kernel
theorem witness_stores : let s := loaded [5, 6, 7] [(5, 8)]
    (storeForm s.ops s.imx (.st .d 4 1 1)).isSome = true ∧ issuesNow (.st .d 4 1 1) s = true ∧ ownRun s (W 0x1008) 8 0x1008 false = true ∧
    unwatched s 0x1008 8 = true ∧ (storeForm s.ops s.imx (.stx 4 1 0)).isSome = true ∧ issuesNow (.stx 4 1 0) s = true ∧
    (storeForm s.ops s.imx (.stv 4 8 0)).isSome = true ∧ issuesNow (.stv 4 8 0) s = true ∧ globalRun s 0x50040 64 { write := true } = true := by
  decide +kernel
theorem witness_atomics : let s := loaded [5, 6, 7] [(5, 8)]
    (atomicForm s.ops (.amo .cas .d 4 6 1 5)).isSome = true ∧ issuesNow (.amo .cas .d 4 6 1 5) s = true ∧ ownRun s (W 0x1000) 8 0x1000 true = true ∧
    unwatched s 0x1000 8 = true ∧ (atomicForm s.ops (.red .add .w 8 5)).isSome = true ∧ issuesNow (.red .add .w 8 5) s = true ∧
    globalRun s 0x50040 4 atomicNeeds = true := by decide +kernel
theorem witness_ordered : let s := loaded [5, 6, 7] [(5, 8)]
    (orderedForm s (.ldDAcq .sys 4 6 8 0)).isSome = true ∧ issuesNow (.ldDAcq .sys 4 6 8 0) s = true ∧
    passes s 0x50040 8 { write := false, aligned := true } = true ∧ (orderedForm s (.amos .add .tile .ar 6 1 5)).isSome = true ∧
    issuesNow (.amos .add .tile .ar 6 1 5) s = true ∧ passes s (W 0x1000) 8 atomicNeeds = true ∧ issuesNow (.stDRel .wafer 6 8 0) s = true ∧
    passes s 0x50040 8 { write := true, aligned := true } = true := by decide +kernel
theorem witness_ordering : let s := loaded [5, 6, 7] [(5, 128)]
    issuesNow (.fence .sys) s = true ∧ issuesNow .vjoin s = true ∧ issuesNow (.pref 8) s = true ∧ globalRun s 0x50040 1 { write := false } = true ∧
    bypasses 0x90007 = false ∧ issuesNow (.flush .tile 8 5) s = true ∧ issuesNow (.inval .wafer 8 5) s = true := by decide +kernel
theorem witness_tags : let s := loaded [5, 6, 7] [(5, 8)]
    issuesNow (.tagld 4 6 9 0) s = true ∧ (match s.ctx.tagPlace s.issuing 0x60040 false with | .ok _ => true | .error _ => false) = true ∧
    issuesNow (.tagst 6 9 0) s = true ∧ (match s.ctx.tagPlace s.issuing 0x60040 true with | .ok _ => true | .error _ => false) = true ∧
    issuesNow (.mcst 6 8 0) s = true ∧ globalRun s 0x50040 8 { write := true, aligned := true, home := true, all := true } = true := by decide +kernel
theorem witness_memory : populatedRun 0x20000 2 = true ∧ Apart State.reset ∧ Memory.wf State.reset.mem = true :=
  ⟨by decide +kernel, apart_default rfl, by decide +kernel⟩

/-! ### Vectors -/

/-- Vector operands under a VLT. -/
def vectors (vlt : BitVec 12) : State := demo [(1, 3)] (inBerth fun y =>
  ({ y with vlt := vlt }.write (.v 1) 0x0123456789ABCDEF0123456789ABCDEF).write (.v 2) 0x11)

theorem witness_lanes : ∀ i ∈ [Instr.vadd 0 3 1 2, .vdiv 0 3 1 2, .vperm 0 3 1 2, .vbcast 0 3 1, .vpln 0 3 1 1, .viota 0 3, .vcvt 0 3 1],
    (laneForm (vectors 0).ops i).isSome = true ∧ issuesNow i (vectors 0) = true := by decide +kernel
theorem witness_float_lanes : (lanesOf (vectors 0).ops).fl.isSome = true ∧ (laneForm (vectors 0).ops (.vsqrt 0 3 1)).isSome = true ∧
    issuesNow (.vsqrt 0 3 1) (vectors 0) = true := by decide +kernel
theorem witness_vector_traps : (vectors 0).curB ≠ 4 ∧ laneIllegal (vectors 4).ops (.vsqrt 0 3 1) = some 4 ∧ issuesNow (.vsqrt 0 3 1) (vectors 4) = true ∧
    laneIllegal (vectors 0).ops (.vpln 0 3 1 2) = some 0 ∧ issuesNow (.vpln 0 3 1 2) (vectors 0) = true ∧
    (laneIllegal (vectors 0x200).ops (.vcvt 0 3 1)).isSome = true ∧ issuesNow (.vcvt 0 3 1) (vectors 0x200) = true := by decide +kernel
theorem witness_vector_others : (compareForm (.vcmpLt 0 2 1 2)).isSome = true ∧ issuesNow (.vcmpLt 0 2 1 2) (vectors 0) = true ∧
    issuesNow (.vsel 0 3 1 2) (vectors 0) = true ∧ (reduceForm (lanesOf (vectors 0).ops) (.vreds 0 3 1 2)).isSome = true ∧
    issuesNow (.vreds 0 3 1 2) (vectors 0) = true ∧ issuesNow (.vscan 0 3 1) (vectors 0) = true ∧ issuesNow (.vmovsG 4 1 1) (vectors 0) = true ∧
    issuesNow (.vmovsV 3 1 1) (vectors 0) = true ∧
    (treeValue (fun x y => x + y) 6 (fun j => if j < 64 then some (laneOf (vectors 0).ops.v[0] 1 j) else none) 0).isSome = true := by decide +kernel

/-! ### Macros -/

/-- Whether a macro's descriptor at 0x1000 passes its checks, its handle not being at its end already (`ends` false) or being so. -/
def enters (i : Instr) (s : State) (ends : Bool) : Bool :=
  match macroForm s.ops i with
  | none => false
  | some f =>
    let d := ownDesc s 0x1000
    let h := macroHandle s f 0x1000 d
    issuesNow i s && ownRun s f.ea 64 0x1000 true && descPasses (f.check d) && f.weights.isNone && decide (h.prog = h.total) == ends

theorem witness_macros : enters (.copy .e2 3 1) (loaded [2 * 2 ^ 32, wbase + 0x3000, wbase + 0x4000, 5] []) false = true ∧
    enters (.copy .e2 3 1) (loaded [5, wbase + 0x3000, wbase + 0x4000, 5] []) true = true ∧
    enters (.gath .e4 3 1) (loaded [0, wbase + 0x3000, wbase + 0x4000, 5, 0x5000] []) false = true ∧
    enters (.setm .e4 3 1 2) (loaded [0, wbase + 0x3000, 0, 5] []) false = true ∧
    enters (.tlw .bf16 3 1) (loaded [0, 0x3000 + 64 * 2 ^ 38, 8] []) false = true ∧
    enters (.tdr .bf16 3 1) (loaded [0, 0x3000 + 2 ^ 38, 4] []) false = true ∧
    enters (.steer 5 1 2) (loaded [0, 0x3000 + 64 * 2 ^ 19, 4 + 0x5000 * 2 ^ 19] [(2, 0x400000007), (5, 9)]) false = true := by decide +kernel
/-- A TMM whose weights a TLW descriptor at 0x2000 names. -/
theorem witness_weights : let s := loaded [0, 0x3000 + 2 ^ 38, 4 + 8 * 64, 0x2000] [] fun x =>
      { x with pad := x.pad.writeBytes 0x2000 (words [0, 0x3000 + 64 * 2 ^ 38, 8]) }
    ∃ f, macroForm s.ops (.tmm .bf16 3 1) = some f ∧ f.weights = some false ∧ issuesNow (.tmm .bf16 3 1) s = true ∧
      descPasses (f.check (ownDesc s 0x1000)) = true ∧ weightsOk s f (ownDesc s 0x1000) := by
  refine ⟨_, rfl, rfl, by decide +kernel, by decide +kernel, ?_⟩
  intro sparse e
  cases e
  exact ⟨by decide +kernel, by decide +kernel, desc_passes (by decide +kernel), by decide +kernel, by decide +kernel⟩
theorem witness_register_macros : let s := loaded [0x100020003, 0x100010001, 0, 5] [(5, 0x7F)]
    issuesNow (.tz 2 1) s = true ∧ issuesNow (.tshape 2 1) s = true ∧ ownRun s (W 0x1000) 32 0x1000 true = true ∧ shapeWord 0x100020003 ∧
    issuesNow (.qfence .sys 2 6) s = true ∧ (s.ops.rg 6).setWidth 7 = (0 : BitVec 7) ∧ issuesNow (.qfence .sys 2 5) s = true ∧
    (s.ops.rg 5).setWidth 7 ≠ (0 : BitVec 7) := by unfold shapeWord; decide +kernel
/-- A copy stopped on handle 3, its descriptor at 0x1000. -/
def stoppedCopy : State :=
  let s := loaded [0, wbase + 0x3000, wbase + 0x4000, 5] []
  s.setTile 0 (inBerth (fun y => y.setHd 3 { op := 10, eng := 2, total := 5, prog := 2, desc := ownDesc s 0x1000, daddr := 0x1000, st := .stopped }) (s.tile 0))
theorem witness_macro_control : let s := stoppedCopy
    issuesNow (.mwait 3) s = true ∧ issuesNow (.mprg 4 3) s = true ∧ issuesNow (.mstat 4 3) s = true ∧ issuesNow (.mkill 3) s = true ∧
    issuesNow (.mkill 2) s = true ∧ (s.ops.hd 2).st = .idle ∧ issuesNow (.mres 3 1) s = true ∧ ownRun s (W 0x1000) 64 0x1000 true = true ∧
    (s.ops.hd 3).st = .stopped ∧ (ownDesc s 0x1000).extractLsb' 32 480 = (s.ops.hd 3).desc.extractLsb' 32 480 := by decide +kernel

/-! ### Messages, subscriptions, tasks, the bank -/

theorem witness_messages : let s := loaded [] [(2, 0x4000000007), (3, 0x123456789), (5, 2)] fun x =>
      { x with streams := [{ name := 0x123456789, window := 7, sseq := 3 }] }
    issuesNow (.pub 3 1 2) s = true ∧ wbits (s.ops.rg 2) 46 32 = 64 ∧ (s.ops.rg 2).toNat < 2 ^ 47 ∧ (s.ops.rg 1).toNat = wbase + 0x1000 ∧
    issuesNow (.send 3 1 5) s = true ∧ ((s.tile s.cur).streams.find? (fun y => y.name == s.ops.rg 3)).isSome = true := by decide +kernel

/-- A state for SUB and UNSUB: a waiting frame 1, the record of a subscription at 0x1000, job 1's template and summits. -/
def subscribing (subs : List SubRec) : State :=
  withTmpl (loaded [0x123456, 3 + 5 * 2 ^ 20, 7 + 8 * 2 ^ 20, 0x3000 + 4 * 2 ^ 19] [(2, 77 + 2 ^ 32 * 1)] fun x =>
    { x.setFrame 1 { st := .wait, tidx := 0, tag := 77, nslot := 4 } with subs := subs })

/-- The record that the state's SUB reads. -/
def record : Option SubRec := subRecord (W 0x1000) (77 + 2 ^ 32 * 1) (ownNumber (subscribing []) 0x1000 32)

theorem witness_subscriptions : ∃ r, record = some r ∧ issuesNow (.subNet 9 7 1 2) (subscribing []) = true ∧ ownRun (subscribing []) (W 0x1000) 32 0x1000 true = true ∧
    ((subscribing []).tile 0).subs = [] ∧ issuesNow (.subNet 9 7 1 2) (subscribing [r]) = true ∧ r.same r = true ∧
    issuesNow (.unsub 9 7 1 2) (subscribing []) = true ∧ issuesNow (.unsub 9 7 1 2) (subscribing [r]) = true ∧
    ([r].find? (fun y => y.same r)).isSome = true := ⟨_, rfl, by decide +kernel⟩
theorem witness_may_fill : mayFill (subscribing []) (77 + 2 ^ 32 * 1) :=
  ⟨by decide +kernel, tmpl0, by decide +kernel, by decide +kernel, by decide +kernel⟩
theorem witness_packets : let s := withTmpl (demo [(1, 0x123456789), (2, 5), (4, 0x700003)])
    issuesNow (.grant 1 2) s = true ∧ (s.ops.rg 2).toNat < 2 ^ 16 ∧ s.ops.rg 2 ≠ 0 ∧ issuesNow (.grant 1 3) s = true ∧ s.ops.rg 3 = 0 ∧
    issuesNow (.spawn 3 4) s = true ∧ s.tmpl s.cur ((s.ops.rg 3).setWidth 16) = some tmpl0 ∧ tmpl0.list ≠ [] ∧
    tmpl0.list.getD ((s.ops.rg 4).toNat % 2 ^ 20 % tmpl0.list.length) 0 ≠ 0 := by decide +kernel
theorem witness_tasks : let s := withTmpl (loaded [0x1234567800000005, 8] [(2, 0x700003), (4, 77), (5, 0x201), (6, 3)] fun x =>
      x.setFrame 1 { st := .wait, tidx := 0, tag := 77, nslot := 3 })
    issuesNow (.frame 9 7 3 2) s = true ∧ s.tmpl s.cur ((s.ops.rg 3).setWidth 16) = some tmpl0 ∧ 0 ∈ tmpl0.list ∧ s.cur = 0 ∧ tmpl0.subs = [] ∧
    tmpl0.req ≠ 0 ∧ (s.tile s.cur).freeFrame.isSome = true ∧ issuesNow (.fslot 3 5 4) s = true ∧ (s.ops.rg 5).toNat < 2 ^ 12 ∧
    ((s.tile s.cur).frame 1).st ≠ .free ∧ ((s.tile s.cur).frame 1).tag = 77 ∧ issuesNow (.tagop 9 7 2 6) s = true ∧ wbits (s.ops.rg 6) 62 32 = 0 ∧
    issuesNow (.arrive 1) s = true ∧ ownRun s (W 0x1000) 16 0x1000 true = true ∧ issuesNow (.arrive 8) s = true ∧
    globalRun s 0x50040 16 atomicNeeds = true := by decide +kernel

/-- A bank at tick 20 with two entries in use. -/
def banked (src : Bool) (x : Tile) : Tile := { x with bank := { x.bank with t := 20, src, entries := [(4, { ref := true, pot := 0x80001234, u := 9 }),
  (5, { fired := true, pot := 0x1234, u := 9 })] } }
theorem witness_bank : let s := loaded [2 ^ 16, 5, 1, 9] [(2, 4), (3, BitVec.ofNat 64 (4 + 3 * 2 ^ 13)), (4, BitVec.ofNat 64 (2 ^ 63 + 4 + 3 * 2 ^ 13)),
      (5, BitVec.ofNat 64 (2 ^ 63 + 2 ^ 48 * 5 + 7 * 2 ^ 32 + 99))] (banked false)
    issuesNow (.stsnap 1) s = true ∧ unwatched s 0x1000 512 = true ∧ issuesNow (.evsnap 3 1) s = true ∧ wbits (s.ops.rg 3) 26 13 = 3 ∧
    issuesNow (.evcfgEntries 4 5) s = true ∧ issuesNow (.evcfgPset 4 5) s = true ∧ (s.ops.rg 4).getLsbD 63 = true ∧ wbits (s.ops.rg 4) 62 27 = 0 ∧
    (s.ops.rg 5).getLsbD 60 = false ∧ wbits (s.ops.rg 5) 59 48 < 64 ∧ issuesNow (.evcfgPset 2 1) s = true ∧
    ownRun s (W 0x1000) 32 0x1000 true = true ∧ psetOk (BitVec.ofNat 256 (ownNumber s 0x1000 32)) = true ∧ issuesNow (.evrd 9 7 2) s = true ∧
    issuesNow (.evtick 2) s = true ∧ (s.tile s.cur).bank.q = [] ∧ issuesNow (.evtick 6) s = true ∧ s.ops.rg 6 = 0 ∧
    issuesNow (.evtick 6) (demo [] (banked true)) = true := by decide +kernel

/-! ### The Filhus registers, the cairn controller, observation -/

/-- The module after its boot. -/
def up : State := { State.reset with booted := true }

theorem witness_up : Up up := ⟨rfl, rfl⟩
theorem witness_plain_registers : (2049 : BitVec 17).toNat % 2048 < 1088 ∧ (plainRegs 3 2 2049).length = 9 ∧
    ((1 : Word).toNat < 2 ^ 12 ∧ (1 : Word) ≠ 0) ∧ ¬((0x1000 : Word).toNat < 2 ^ 12 ∧ (0x1000 : Word) ≠ 0) := by decide +kernel
theorem witness_counters : (countersOf up 3 2 2049).length = 8 ∧ (2049 : BitVec 17).toNat % 2048 < 1024 ∧ (countersOf up 3 2 1030).length = 7 := by
  decide +kernel
theorem witness_unmapped : populated 0x40200000000 = false ∧ ¬(0x60000000000 ≤ 0x40200000000 ∧ 0x40200000000 < 0x70000000000) ∧
    (∀ b ∈ [msReg 0, 0x40100000000, 0x40100010000], 0x40200000000 / 2 ^ 32 ≠ b / 2 ^ 32) := by decide +kernel
theorem witness_module_writes : let s := (up.setTile 5 { up.tile 5 with job := 9 })
    ((64 : Word).toNat < 2 ^ 32 ∧ 64 ≤ (64 : Word).toNat) ∧ (63 : Word).toNat < 64 ∧ ((0x111 : Word).toNat % 16 ≠ 0) ∧ up.packets = [] ∧
    (8 : Word).toNat < 2 ^ 10 ∧ s.jobs = [] ∧ s.cairn.pending = [] ∧ ((9 + 5 * 4096 + 4 * 2 ^ 29 : Word).toNat < 2 ^ 32) ∧
    (s.tile ((9 + 5 * 4096 + 4 * 2 ^ 29 : Word).toNat / 2 ^ 12 % 2 ^ 17)).job = (9 + 5 * 4096 + 4 * 2 ^ 29 : Word).setWidth 12 ∧
    ((0x300000001 : Word) &&& 0xFFE00000FFF00000 = 0) := by decide +kernel
theorem witness_range_fits : rangeFits (5 * 2 ^ 32 + 2) (4 * 2 ^ 14 + 8) := by
  refine ⟨by decide +kernel, by decide +kernel, by decide +kernel, by decide +kernel, fun _ => ⟨2, by decide +kernel⟩⟩
theorem witness_module_busy : let s := up.setJob 1 { up.job 1 with st := .running }
    (∃ j ∈ s.jobs, j.2.st = .running ∨ j.2.st = .gated) := ⟨_, List.mem_singleton.mpr rfl, Or.inl rfl⟩
theorem witness_watchpoint : let s := { up with jtsel := 4 }
    s.jtsel ≠ 0 ∧ (0x55 : Word).toNat < 2 ^ 32 ∧ wbits (s.job 4).wp0[2] 61 44 = 0 ∧ (s.job 4).wp0[2].getLsbD 63 = false ∧ (s.job 4).wp0[2].getLsbD 62 = false ∧
    wbits (s.job 4).wp0[2] 43 19 = 0 ∧ (2 ^ 44 : Word) &&& 0x3FFFF00000000000 ≠ 0 := by decide +kernel
theorem witness_shoot : let s := { up with shoot := 0x1001, shootBusy := true, shootva := 0x50123 }
    (0x4005 : Word).toNat < 2 ^ 16 ∧ (0x4005 : Word).toNat / 2 ^ 12 % 4 < 2 ∧ s.stuck = none ∧ s.shootBusy = true ∧ s.shoot.getLsbD 14 = false ∧
    up.shootBusy = false := by decide +kernel
theorem witness_csnap : up.csnapBusy = false ∧ (0x10000 : Word) &&& 0x7FFFF00000000000 = 0 ∧ populatedRun 0x10000 40960 = true ∧ Apart up ∧ NoWatch up ∧
    ({ up with csnapBusy := true }).csnapBusy = true :=
  ⟨rfl, by decide +kernel, by decide +kernel, apart_default rfl, watch_none (by decide +kernel), rfl⟩
theorem witness_mailbox : let s := { up with cairn := { up.cairn with arg := 0x10000, step := 6 } }
    Mailbox s 1 1 256 ∧ Mailbox s 3 3 20480 ∧ Mailbox s 4 4 144 ∧ Mailbox s 5 5 16 ∧ Mailbox s 2 2 600 ∧ s.cairn.step ≠ 0 ∧ s.retireBusy = false :=
  ⟨⟨⟨rfl, rfl⟩, rfl, rfl, by decide +kernel, by decide +kernel, apart_default rfl⟩, ⟨⟨rfl, rfl⟩, rfl, rfl, by decide +kernel, by decide +kernel, apart_default rfl⟩,
    ⟨⟨rfl, rfl⟩, rfl, rfl, by decide +kernel, by decide +kernel, apart_default rfl⟩, ⟨⟨rfl, rfl⟩, rfl, rfl, by decide +kernel, by decide +kernel, apart_default rfl⟩,
    ⟨⟨rfl, rfl⟩, rfl, rfl, by decide +kernel, by decide +kernel, apart_default rfl⟩, by decide +kernel, rfl⟩
theorem witness_mailbox_misaligned : let s := { up with cairn := { up.cairn with arg := 0x10008 } }
    s.retireBusy = false ∧ s.cairn.arg.toNat % 64 ≠ 0 ∧ (6 : Word).toNat < 256 := by decide +kernel
theorem witness_power : up.orphq = 0 ∧ up.cairn.pending = [] ∧ up.tiles.risesFrom 0 = true ∧ 950 < 1000 ∧ 1000 ≤ 1050 ∧ 1050 < 1051 ∧
    State.reset.booted = false := by decide +kernel

/-- An inbound transaction that reaches no byte is mapped, whatever the IOMMU holds. -/
theorem witness_pcie : pciePlaces { port := 0, write := true, addr := 0, bytes := [] } = some [] ∧ ([] : List Nat).Nodup ∧ Apart up :=
  ⟨rfl, by decide, apart_default rfl⟩

/-- A running tile whose field records, with its trace queue given. -/
def tracing (q : List (BitVec 256)) : State :=
  let s := demo []
  let s := s.setField 0 { s.field 0 with trbase := 0x30000, cyc := 512, powered := true, traceQ := q }
  s.setTile 0 { s.tile 0 with smpcfg := 0x11, traceQ := q }

theorem witness_debug : (3 : Word).toNat < 4 ∧ (3 : Word).getLsbD 0 = true ∧ (2 : Word).getLsbD 0 = false ∧ (5 : Word).toNat < 8 ∧ (5 : Word).getLsbD 2 = true ∧
    (up.tile 5).stopped = false ∧ (5 : Word).getLsbD 0 = true := by decide +kernel
theorem witness_dump : let s := up.setTile 5 { (up.tile 5).setFrame 3 { st := .wait, tag := 5 } with dump := true, stopped := true, dumpaddr := 0x20000 }
    (s.tile 5).dump = true ∧ (s.tile 5).stopped = true ∧ ((s.tile 5).frame 3).st = .wait ∧ populatedRun 0x20000 32 = true ∧ Apart s :=
  ⟨by decide +kernel, by decide +kernel, by decide +kernel, by decide +kernel, apart_default rfl⟩
theorem witness_sample : let s := tracing []
    s.stuck = none ∧ s.tileLive 0 = true ∧ (s.tile 0).smpcfg.getLsbD 0 = true ∧ (s.field 0).trbase ≠ 0 ∧ (s.tile 0).traceQ.length < 4 ∧
    (s.field 0).cyc.toNat % 2 ^ ((s.tile 0).smpcfg.toNat / 2 % 32) = 0 ∧ (s.tile 0).sampleCyc ≠ some (s.field 0).cyc := by decide +kernel
theorem witness_critical_path : let s := { tracing [] with cpWalks := [{ origin := .binding 5, tile := 0, step := 0, depth := 1, mark := 3, job := 1 }] }
    s.cpWalks[0]? = some { origin := .binding 5, tile := 0, step := 0, depth := 1, mark := 3, job := 1 } ∧
    (s.walkOrigin { origin := .binding 5, tile := 0, step := 0, depth := 1, mark := 3, job := 1 }).1 = 0 ∧ s.tileLive 0 = true := by decide +kernel
theorem witness_trace : let s := tracing [5, 6]
    (s.tile 0).traceQ = [5, 6] ∧ (s.field 0).traceQ = [5, 6] ∧ (s.field 0).powered = true ∧ ((s.field 0).trprod - (s.field 0).trcons).toNat = 0 ∧
    populatedRun 0x30000 32 = true ∧ Apart s :=
  ⟨by decide +kernel, by decide +kernel, by decide +kernel, by decide +kernel, by decide +kernel, apart_default rfl⟩
theorem witness_energy : let s := tracing []
    (s.field 0).powered = true ∧ (s.field 0).wf = true ∧ 8 ≤ (s.field 0).wlog.toNat := by decide +kernel
theorem witness_soft_error : let s := demo [] fun x => { x with tdc := [{ key := 5, data := 0, have_ := 1, dirty := 0, lock := none }] }
    s.stuck = none ∧ s.tileLive 0 = true ∧ s.sethr = 0 ∧ (∃ c ∈ (s.tile 0).tdc, c.key = 5) ∧ (∀ c ∈ (s.tile 0).tdc, c.key = 5 → c.dirty = 0) ∧
    (∀ c ∈ (s.tile 0).tdc, c.key = 6 → c.dirty ≠ 0) :=
  ⟨by decide +kernel, by decide +kernel, by decide +kernel, ⟨_, List.mem_singleton.mpr rfl, rfl⟩, by decide +kernel, by decide +kernel⟩

/-! ### Jobs: their lifetime, gating, retirement -/

/-- A JTCMD of job 1: its code, scope and target. -/
def command (code sc tgt : Nat) : Word := BitVec.ofNat 64 (code + 16 * sc + 128 * tgt)

/-- The module with job 1 selected and in a state. -/
def jobIn (x : JState) : State := { up.setJob 1 { up.job 1 with st := x, allot := 0x10000 } with jtsel := 1 }

/-- The same with spur 0 the job's, its 16 tiles in power. -/
def placed (x : JState) : State :=
  let s := (jobIn x).setSpur 0 { job := 1 }
  (s.tilesOf 1).foldl (fun s n => s.setTile n { job := 1, powered := true }) s

theorem witness_commands : Commands (jobIn .free) (command 1 0 0) 1 1 ∧ Commands (jobIn .ready) (command 5 0 0) 5 1 ∧
    Commands (jobIn .running) (command 3 1 0) 3 1 :=
  ⟨⟨⟨rfl, rfl⟩, by decide +kernel, by decide +kernel, by decide +kernel, by decide +kernel, by decide +kernel⟩,
    ⟨⟨rfl, rfl⟩, by decide +kernel, by decide +kernel, by decide +kernel, by decide +kernel, by decide +kernel⟩,
    ⟨⟨rfl, rfl⟩, by decide +kernel, by decide +kernel, by decide +kernel, by decide +kernel, by decide +kernel⟩⟩
theorem witness_unassigned : (jobIn .free).jtsel ≠ 0 ∧ (command 15 7 0).toNat < 2 ^ 24 ∧ 6 ≤ (command 15 7 0).toNat % 16 ∧
    (command 2 0 0).toNat % 16 = 2 ∧ ((jobIn .scrubbing).job 1).st = .scrubbing := by decide +kernel
theorem witness_allot : let s := (jobIn .free).pwrite 0x10000 [3, 2]
    (s.job 1).st = .free ∧ populatedRun (s.job 1).allot.toNat 512 = true ∧ (s.byte 0x10000).getLsbD 1 = true ∧ (s.byte 0x10001).getLsbD 1 = true ∧
    s.spurs = [] := by decide +kernel
theorem witness_scrub : let s := jobIn .scrubbing
    s.stuck = none ∧ (s.job 1).st = .scrubbing ∧ ((jobIn .ending).job 1).st = .ending := by decide +kernel

/-- The placed job with an image of 64 bytes at 0x20000 and its tables: one template, placed on tile 3, and one name directory entry. -/
def startable : State :=
  let s := placed .ready
  let s := s.setJob 1 { s.job 1 with
    img := 0x20000, ilen := BitVec.ofNat 38 (64 * 2 ^ 19 + 0x400), sup := BitVec.ofNat 38 (0x400 + 2 ^ 19 * 0x9000), ndir := 0x30000, tabs := 0x31000,
    tmplA := 0x40000, pmap := 0x50000, ntmpl := 0 }
  (((s.pwrite 0x40000 (words [0, 5 + 4 * 2 ^ 16 + 2 ^ 25, 0, 0])).pwrite 0x50000 (words [1, 0x51000, 0, 0])).pwrite 0x30000
    (words [1, 0x51000, 0, 0, 0, 0, 0, 0])).pwrite 0x51000 (leBytes 4 3)

theorem witness_start : (startable.job 1).st = .ready ∧ populatedRun 0x20000 64 = true ∧
    (match startable.rdTables 1 with | .ok q => q.roots.isEmpty && q.reds.isEmpty | .error _ => false) = true := by decide +kernel
theorem witness_start_refused : (match ((placed .ready).setJob 1 { (placed .ready).job 1 with sup := 1 }).rdTables 1 with
    | .ok _ => false | .error e => e == .bad) = true := by decide +kernel

/-- The placed job running, with berth 0 of tile 0 bound. -/
def running : State :=
  let s := placed .running
  (s.setTile 0 ((s.tile 0).setBerth 0 { s.berth 0 0 with status := .bound })).setJob 1 { s.job 1 with save := 0x1000000 }

/-- The same in a phase of a GATE of tile 0. -/
def gating (p : GatePhase) (empty : Nat) : State :=
  let s := running.setJob 1 { running.job 1 with busy := true, unit := some { scope := 1, tgt := 0, empty } }
  s.setTile 0 { s.tile 0 with gate := p }

theorem witness_gate : Commands running (command 3 1 0) 3 1 ∧ (running.job 1).st = .running ∧ unitNamed running (command 3 1 0) 1 ∧
    ¬unitNamed running (command 3 1 900) 1 ∧ 0 ∈ running.tilesOf 1 ∧ inUnit 1 0 0 = true ∧ (running.tile 0).powered = true ∧ (running.tile 0).gate = .idle :=
  ⟨⟨⟨rfl, rfl⟩, by decide +kernel, by decide +kernel, by decide +kernel, by decide +kernel, by decide +kernel⟩, by decide +kernel,
    Or.inr (by decide +kernel), by unfold unitNamed; decide +kernel, by decide +kernel, by decide +kernel, by decide +kernel, by decide +kernel⟩
theorem witness_gate_phases : ((gating .stopping 0).job 1).unit = some { scope := 1, tgt := 0, empty := 0 } ∧
    (gating .stopping 0).inPhase 1 { scope := 1, tgt := 0, empty := 0 } .stopping = [0] ∧ ((gating .stopping 0).tile 0).settled = true ∧
    (gating .draining 2).inPhase 1 { scope := 1, tgt := 0, empty := 2 } .stopping = [] ∧
    (gating .draining 2).inPhase 1 { scope := 1, tgt := 0, empty := 2 } .draining = [0] ∧ ((gating .draining 2).tile 0).fills = [] ∧
    (∀ b, ((gating .draining 2).berth 0 b).landing.length ≤ 64) ∧ (gating .saving 2).inPhase 1 { scope := 1, tgt := 0, empty := 2 } .draining = [] ∧
    (gating .saving 2).inPhase 1 { scope := 1, tgt := 0, empty := 2 } .saving = [0] ∧ ((gating .saving 2).tile 0).ops = [] ∧
    ((gating .saving 2).tile 0).wb = [] ∧ ((gating .saving 2).tile 0).misses = [] ∧ ((gating .saving 2).tile 0).fetches = [] := by decide +kernel
theorem witness_gate_save : (gating .draining 2).blockAddr 1 0 = 0x1000000 ∧ populatedRun 0x1000000 0x50000 = true ∧ Apart (gating .draining 2) :=
  ⟨by decide +kernel, by decide +kernel, apart_default (by decide +kernel)⟩
theorem witness_sweep : ∃ x, (gating .draining 0).jobs = [(1, x)] ∧ x.unit = some { scope := 1, tgt := 0, empty := 0 } :=
  ⟨_, rfl, by decide +kernel⟩

/-- The placed job gated, with valid blocks of tile 0 written, its berths free; JTMOVE names tile 0 when `move` is true. -/
def gated (move : Bool) : State :=
  let s := placed .gated
  let s := s.setJob 1 { s.job 1 with
    save := 0x1000000, blocks := [{ tile := 0, saved := { job := 1, powered := true } }], move := if move then 2 ^ 17 else 0 }
  let s := s.setTile 0 { s.tile 0 with gate := .gated }
  s.pwrite 0x1000000 (leBytes 8 (2 ^ 33))

theorem witness_resume : Commands (gated false) (command 4 1 0) 4 1 ∧ (gated false).resumable ((gated false).job 1) 1 = true ∧
    unitNamed (gated false) (command 4 1 0) 1 ∧ ((gated false).job 1).move.getLsbD 17 = false ∧ (gated false).savedTiles 1 1 0 = [0] ∧
    (gated false).blockValid 1 0 = true ∧ Resting ((gated false).tile 0) ∧ ((gated false).tile 0).faulted = false :=
  ⟨⟨⟨by decide +kernel, by decide +kernel⟩, by decide +kernel, by decide +kernel, by decide +kernel, by decide +kernel, by decide +kernel⟩, by decide +kernel,
    Or.inr (by decide +kernel), by decide +kernel, by decide +kernel, by decide +kernel, ⟨by decide +kernel, by decide +kernel, by decide +kernel⟩, by decide +kernel⟩
theorem witness_resume_move : (command 4 1 1).toNat / 128 = 1 ∧ ((gated true).job 1).move.getLsbD 17 = true ∧ ((gated true).job 1).move.toNat % 2 ^ 17 = 0 ∧
    1 ∈ (gated true).tilesOf 1 ∧ 0 ∈ (gated true).tilesOf 1 ∧ (((gated true).job 1).blocks.find? (fun q => q.tile.toNat == 0)).isSome = true ∧
    (gated true).blockValid 1 0 = true ∧ ((gated true).tile 1).liveFrames = [] ∧ Resting ((gated true).tile 1) ∧ ((gated true).tile 1).moved = [] :=
  ⟨by decide +kernel, by decide +kernel, by decide +kernel, by decide +kernel, by decide +kernel, by decide +kernel, by decide +kernel, by decide +kernel,
    ⟨by decide +kernel, by decide +kernel, by decide +kernel⟩, by decide +kernel⟩

/-- A tile whose frames are all empty, and which is otherwise `x`. -/
def EmptyFrames (x y : Tile) : Prop := { y with frames := x.frames } = x ∧ ∀ f, y.frame f = {}

/-- A zero byte leaves an empty frame area empty. -/
theorem set_zero {x y : Tile} (h : EmptyFrames x y) {p : Nat} (hp : frameBase ≤ p) : EmptyFrames x (y.setPadByte p 0) := by
  have key : ∀ k < 160, ({} : Frame).setWord (k / 8) (setByteOf (({} : Frame).word (k / 8)) (k % 8) 0) = {} := by decide +kernel
  unfold Tile.setPadByte
  split
  · exact h
  · refine ⟨h.1, fun f => ?_⟩
    simp only [h.2, key _ (Nat.mod_lt _ (by decide)), Tile.setFrame]
    rw [Tile.frame, SMap.get_put]
    split
    · rfl
    · exact h.2 f

theorem set_zeros {x : Tile} : ∀ n y p, EmptyFrames x y → frameBase ≤ p → EmptyFrames x (y.setPadBytes p (List.replicate n 0))
  | 0, _, _, h, _ => h
  | n + 1, y, p, h, hp => by
    rw [List.replicate_succ, Tile.setPadBytes]; exact set_zeros n _ (p + 1) (set_zero h hp) (by omega)

/-- Past its VALID word the moved block holds zeros. -/
theorem block_zeros (n a : Nat) (h : 0x1000008 ≤ a) : (gated true).pbytes a n = List.replicate n 0 := by
  have m : (gated true).mem = [((gated true).cell 0x1000004, 2)] := by decide +kernel
  have z : ∀ b, 0x1000008 ≤ b → (gated true).pb b = 0 := by
    intro b hb
    rw [State.pb, m, SMap.get, if_neg, SMap.get]
    exact fun e => absurd (apart_default (by decide +kernel) _ _ e) (by omega)
  unfold State.pbytes
  induction n generalizing a with
  | zero => rfl
  | succ n ih => rw [readN, z a h, ih (a + 1) (by omega), List.replicate_succ]

/-- A tile whose berths are free takes nothing from its block's berth areas. -/
theorem take_free {x : Tile} (h : ∀ b : Fin 5, x.berths[b].status = .free) (l : List (Fin 5)) (f : Fin 5 → List Byte) :
    l.foldl (fun x b => x.takeBerth b (f b)) x = x := by
  induction l with
  | nil => rfl
  | cons b r ih => rw [List.foldl_cons, Tile.takeBerth, h b]; exact ih

/-- A tile with no frame, subscription, copy or bound berth takes none from a block whose frame area is zero. -/
theorem of_block_empty {x : Tile} (hf : ∀ f, x.frame f = {}) (hb : ∀ b : Fin 5, x.berths[b].status = .free) (hs : x.subs = []) (he : x.egress = [])
    {rd : Nat → Nat → List Byte} {n : Nat} (hr : rd 0x1000 40960 = List.replicate n 0) : (x.ofBlock rd).liveFrames = [] ∧ Resting (x.ofBlock rd) := by
  have z := set_zeros (x := x) n x frameBase ⟨rfl, hf⟩ (Nat.le_refl _)
  unfold Tile.ofBlock
  simp only [hr]
  generalize Tile.setPadBytes _ _ _ = y at z ⊢
  obtain ⟨z1, z2⟩ := z
  have b : y.berths = x.berths := by rw [← z1]
  have s : y.subs = x.subs := by rw [← z1]
  have g : y.egress = x.egress := by rw [← z1]
  rw [take_free (by rw [b]; exact hb)]
  refine ⟨?_, s.trans hs, g.trans he, by simpa [b] using hb⟩
  simp only [Tile.liveFrames, Tile.frame, List.filter_eq_nil_iff]
  intro f _
  rw [show SMap.get {} y.frames f = {} from z2 f]
  decide

theorem witness_moved_block : let x := ({ job := 1, powered := true } : Tile).ofBlock ((gated true).blockBytes 1 0)
    x.liveFrames = [] ∧ Resting x :=
  of_block_empty (n := 40960) (fun _ => rfl) (by decide +kernel) rfl rfl (by
    rw [State.blockBytes, show (gated true).blockAddr 1 0 = 0x1000000 by decide +kernel]; exact block_zeros _ _ (by decide))

theorem witness_unposted : Unposted up := ⟨rfl, fun _ => ⟨rfl, rfl⟩⟩
theorem witness_retire : (5 : Word).toNat < 2 ^ 17 ∧ (5 : Word).toNat % 2048 < 1088 ∧ up.retireBusy = false ∧ (up.tile 5).retired = false ∧
    up.occupied 5 = false ∧ (up.spur (spurOf 5)).sectors = [] ∧ running.occupied 0 = true ∧ (running.tile 0).retired = false ∧
    running.stuck = none ∧ running.booted = true := by decide +kernel
theorem witness_advance : up.genBusy = false ∧ (1 : Word) = (up.gen + 1).setWidth 64 ∧ (5 : Word).setWidth 8 ≠ up.gen + 1 ∧
    ({ mt := some { mkind := 0, tid := 0 } } : Packet).mt.isSome = true ∧ ({} : Packet).mt = none ∧ ({} : Packet).fed = none := by decide +kernel
theorem witness_refresh : let s := { startable.setJob 1 { startable.job 1 with st := .running } with genBusy := true, refresh := [0] }
    s.stuck = none ∧ 0 ∈ s.refresh ∧ s.refreshes 0 = true ∧ (match s.rdRefresh (s.tile 0).job.toNat with | .ok _ => true | .error _ => false) = true ∧
    (s.tile 0).subs = [] ∧ (s.tile 0).egress = [] := by decide +kernel
theorem witness_advance_done : let s := { up with genBusy := true, refresh := [0] }
    s.refreshes 0 = false ∧ s.reductions = [] := by decide +kernel

/-! ### A tile's parts -/

/-- Berth 0 of tile 0 trapped. -/
def trapped (st : BStatus) : State := demo [(1, 9)] fun x =>
  { inBerth (fun y => { y with status := st, frame := 9, trap := some (mkTrap 0x02 3 4 5 6) }) x with trapQ := [0], svec := 0x440, ssave := 0x9000 }

theorem witness_save : let s := trapped .trapSaving
    s.stuck = none ∧ s.tileLive 0 = true ∧ (s.tile 0).faulted = false ∧ (s.tile 0).stopped = false ∧ (s.tile 0).halted = false ∧
    (s.berth 0 0).status = .trapSaving ∧ (s.tile 0).ops = [] ∧ (s.berth 0 0).landing = [] ∧ (s.tile 0).ssave.toNat + 0x4400 * 0 + 0x4400 ≤ frameBase := by
  decide +kernel
theorem witness_entry : let s := trapped .trapped
    s.stuck = none ∧ s.coreRuns 0 = true ∧ (s.tile 0).trapQ = [0] ∧ (s.tile 0).handling = none ∧ (s.berth 0 0).trap = some (mkTrap 0x02 3 4 5 6) ∧
    (s.berth 0 0).status = .trapped := by decide +kernel
/-- A ready token in frame 20 and a free berth 0. -/
def selecting : State := withTmpl (demo [] fun x =>
  (inBerth (fun y => { y with status := .free }) x).setFrame 20 { st := .ready, tag := 9, ip := 0x60, tidx := 0, nslot := 2 })
theorem witness_selection : selecting.selectToken 0 = some 20 ∧ selecting.framesRun 0 = true ∧ (selecting.tile 0).gate = .idle ∧
    (selecting.berth 0 0).status = .free ∧ (∀ k < 4, ((selecting.tile 0).bpA.getD k 0).getLsbD 63 = false) := by decide +kernel

/-- Tile 0 with a macro on handle 2 at the head of a queue. -/
def working (h : Handle) (g : Tile → Tile) : State := demo [] fun x => g (inBerth (fun y => y.setHd 2 h) x)
/-- A TZ of z tile 2, and a SETM of 8-byte elements. -/
def tzHandle (st : HState) : Handle := { op := 6, total := 32, desc := BitVec.ofNat 512 (2 * 2 ^ 34), st, uid := 501, entered := 501 }
def setHandle : Handle :=
  { op := 12, eng := 2, total := 3, prog := 1, variant := 3, desc := BitVec.ofNat 512 ((wbase + 0x2000) * 2 ^ 64 + 3 * 2 ^ 192), st := .running, uid := 502,
    entered := 502 }
theorem witness_macro_start : let s := working (tzHandle .queued) fun x => { x with qMatrix := [.mac 501] }
    s.enginesRun 0 = true ∧ (s.tile 0).queue (Machine.Queue.num .matrix) = [.mac 501] ∧ Carries s 0 501 0 2 (tzHandle .queued) ∧
    (s.tile 0).owes 0 501 = false := ⟨by decide +kernel, by decide +kernel, ⟨by decide +kernel, by decide +kernel⟩, by decide +kernel⟩
theorem witness_element : let s := working (tzHandle .running) fun x => { x with qMatrix := [.mac 501] }
    Carries s 0 501 0 2 (tzHandle .running) ∧ (tzHandle .running).prog.toNat < 32 ∧ (tzHandle .running).prog ≠ (tzHandle .running).total ∧ (s.tile 0).ops = [] :=
  ⟨⟨by decide +kernel, by decide +kernel⟩, by decide +kernel, by decide +kernel, by decide +kernel⟩
theorem witness_set_element : let s := working setHandle fun x => { x with qCopy := x.qCopy.set 0 [.mac 502] }
    (s.tile 0).queue (Machine.Queue.num (.copy 0)) = [.mac 502] ∧ Carries s 0 502 0 2 setHandle ∧ setHandle.prog ≠ setHandle.total ∧
    (setHandle.desc.extractLsb' 64 64 + 8 * setHandle.prog.setWidth 64 : Word).toNat = wbase + 0x2008 ∧ (s.tile 0).marks = [] ∧
    (∀ k < 8, (s.jobOf 0).watchHit false (0x2008 + k) 1 = none) :=
  ⟨by decide +kernel, ⟨by decide +kernel, by decide +kernel⟩, by decide +kernel, by decide +kernel, by decide +kernel, by decide +kernel⟩
/-- A copied message of 64 bytes. -/
def message : Msg := { uid := 77, strm := false, name := 0x123456789, tag := 5, head := none, src := 0x1000, len := 64, bytes := some (List.replicate 64 1), sseq := 0, who := noIssuer }
theorem witness_inject : let s := demo [] fun x => { x with qEgress := [.msg message] }
    s.enginesRun 0 = true ∧ (s.tile 0).qEgress = [.msg message] ∧ message.bytes = some (List.replicate 64 1) ∧ message.strm = false := by decide +kernel

/-- A fill of frame 30's slot 1. -/
def filling (st : FState) : State := withTmpl (demo [] fun x =>
  { x.setFrame 30 { st, tidx := 0, tag := 7, nslot := 4, req := 3, pres := 1 } with fills := [{ frame := 30, slot := 1, value := 9, kind := .fslot, origin := none }] })
theorem witness_fill : (filling .wait).framesRun 0 = true ∧ ((filling .wait).tile 0).fills = [{ frame := 30, slot := 1, value := 9, kind := .fslot, origin := none }] ∧
    ((filling .wait).tile 0).moved = [] ∧ ((filling .wait).field 0).trbase = 0 ∧ (((filling .wait).tile 0).frame 30).st = .wait ∧
    ((filling .wait).tile 0).berthOf 30 = none ∧ (((filling .ready).tile 0).frame 30).st = .ready := by decide +kernel
theorem witness_fill_unposted : Unposted (filling .ready) := by
  have h : (filling .ready).jobs = [(1, (filling .ready).job 1)] := by decide +kernel
  have g : ((filling .ready).job 1).fq = 0 ∧ ((filling .ready).job 1).sq = 0 := by decide +kernel
  refine ⟨by decide +kernel, fun j => ?_⟩
  rw [State.job, h, SMap.get]
  split
  · exact g
  · exact ⟨rfl, rfl⟩

/-- A packet that has reached tile 0. -/
def packetOf (typ : BitVec 4) : Packet := { typ, vc := 0, job := 1, place := .tile 0, orig := 5, oseq := 3, dest := 0, tag := 0x44, aux := 0, routed := true }
/-- A state in which one packet stands. -/
def withPacket (s : State) (p : Packet) : State := { s with packets := [p] }

theorem witness_arrives : ∀ typ ∈ [(3 : BitVec 4), 7, 9, 10], Arrives (withPacket (demo []) (packetOf typ)) 0 0 (packetOf typ) typ := by
  intro typ h
  fin_cases h <;> exact ⟨by decide +kernel, by decide +kernel, by decide +kernel, by decide +kernel, by decide +kernel, by decide +kernel, by decide +kernel, by decide +kernel⟩
theorem witness_creates : Creates (withTmpl (demo [])) 0 0 tmpl0 0 :=
  ⟨by decide +kernel, by decide +kernel, by decide +kernel⟩
theorem witness_emission : let s := withTmpl (demo [] fun x => { x with
      chains := x.chains.set 1 { x.chains[1] with run := true, islot := 2, depth := 1, clim := 0x0202020202, ctmpl := 0, ctag := 0x12300001 } })
    s.framesRun 0 = true ∧ (s.tile 0).gate = .idle ∧ (s.tile 0).turn = some 1 ∧ s.tmpl 0 0 = some tmpl0 ∧
    tmpl0.list.getD ((0x12300001 : BitVec 32).toNat % 2 ^ 20 % tmpl0.list.length) 0 ≠ 0 := by decide +kernel

/-- A window of the bank for population 7, and an event for neuron 3. -/
def evented (e : List Ev) : State := demo [] fun x => { x with bank := { x.bank with
  t := 50, wl := (Vector.replicate 4 0).set 1 (BitVec.ofNat 64 (2 ^ 63 + 7 * 2 ^ 32)), wh := (Vector.replicate 4 0).set 1 (BitVec.ofNat 64 (100 + 16 * 2 ^ 13)), q := e } }
theorem witness_event : nameTens (BitVec.ofNat 64 (7 * 2 ^ 40 + 3)) ≠ 0xFFFFFF ∧
    (((evented []).tile 0).bank.window (nameTens (BitVec.ofNat 64 (7 * 2 ^ 40 + 3))) (nameCol (BitVec.ofNat 64 (7 * 2 ^ 40 + 3)))).isSome = true ∧
    ((evented []).tile 0).bank.room false = true ∧ ((evented []).tile 0).bank.late = false := by decide +kernel
theorem witness_apply : let e : Ev := { entry := 103, ts := 50, w := 6, own := false, ltn := 5, seq := 3, neuron := 3, pop := 7, late := none }
    ((evented [e]).tile 0).bank.next = some e ∧ (evented [e]).framesRun 0 = true := by decide +kernel
theorem witness_claim : nameTens (BitVec.ofNat 64 (0xFFFFFF * 2 ^ 40 + 1)) = 0xFFFFFF ∧ nameCol (BitVec.ofNat 64 (0xFFFFFF * 2 ^ 40 + 1)) = 1 ∧
    wbit (psetWord 0 0) 17 = false ∧ wbits (psetWord 0 2) 1 0 = 0 := by decide +kernel
theorem witness_tile_failure : (filling .ready).stuck = none ∧ (filling .ready).tileLive 0 = true ∧ ((filling .ready).tile 0).faulted = false := by
  decide +kernel

/-! ### Routers, summits, ingress -/

/-- A packet at router 40 that came by the west port. -/
def hopping (typ : BitVec 4) : Packet :=
  { typ, vc := 0, job := 1, place := .router 40, orig := 5, oseq := 3, dest := 41, tag := 0x44, aux := 0, inp := .w, row1 := 2, col1 := 3
    name := BitVec.ofNat 64 (7 * 2 ^ 40 + 2 * 2 ^ 20 + 3) }
/-- The table entry of its pattern, counted once at the east port. -/
def entryOf (typ : BitVec 4) : NmtEnt := { (hopping typ).entry false with cnt := (Vector.replicate 5 0).set Port.e.num 1 }
/-- The state in which it stands, its pattern in the router's table. -/
def routing (p : Packet) : State :=
  let s := withPacket (demo []) p
  s.setRouter 40 { s.router 40 with nmt := [some (entryOf 1)] }

theorem witness_install : (∀ y, some y ∈ ([] : List (Option NmtEnt)) → (entryOf 1).same y = false) ∧ ([none] : List (Option NmtEnt))[0]? = some none ∧
    ([some (entryOf 1)] : List (Option NmtEnt))[0]? = some (some (entryOf 1)) ∧ (entryOf 1).same (entryOf 1) = true ∧
    ((entryOf 1).cnt.get Port.e.num).toNat = 1 ∧ (∀ q, q ≠ Port.e → (entryOf 1).cnt.get q.num = 0) :=
  ⟨fun y h => by simp at h, by decide +kernel, by decide +kernel, by decide +kernel, by decide +kernel, fun q h => by cases q <;> first | rfl | exact absurd rfl h⟩
/-- While no tile is in a GATE, no router holds a packet. -/
theorem held_none {s : State} (h : ∀ t, (s.tile t).gate = .idle) (r : Nat) (p : Packet) : s.held r p = false := by
  have g : ∀ t j, s.gating t j = false := fun t j => by simp [State.gating, h]
  simp [State.held, State.shuts, g]
theorem routing_idle (p : Packet) (t : Nat) : ((routing p).tile t).gate = .idle := by
  have h : (routing p).tiles = [(0, (demo []).tile 0)] := by
    have e : (demo []).tiles = [(0, (demo []).tile 0)] := by decide +kernel
    exact e
  rw [State.tile, h, SMap.get]
  split
  · decide +kernel
  · rfl
theorem witness_reaches : ∀ typ ∈ [(0 : BitVec 4), 1, 2], Reaches (routing (hopping typ)) 0 40 (hopping typ) typ := by
  intro typ h
  fin_cases h <;> exact ⟨by decide +kernel, by decide +kernel, by decide +kernel, by decide +kernel, by decide +kernel,
    ⟨by decide +kernel, held_none (routing_idle _) _ _⟩, by decide +kernel, by decide +kernel⟩
theorem witness_router : let p := hopping 1
    p.dmod = (routing p).modid ∧ hostTile p.dest.toNat ≠ 40 ∧ p.tracked ∉ ((routing p).router 40).counted ∧
    (Router.install ((routing p).router 40) (p.entry false) p.inp).isSome = true ∧
    (Router.uninstall ((routing (hopping 2)).router 40) ((hopping 2).entry false) .e).isSome = true ∧
    (routing (hopping 0)).pubPorts 40 { hopping 0 with dir := true } = [.e] ∧ ((routing (hopping 0)).nextHop 40 (hopping 0)).isSome = true := by decide +kernel
theorem witness_router_answer : let p := { hopping 3 with path := [(40, .e)], full := none, orig := 41 }
    let s := routing p
    let s := s.setRouter 40 { s.router 40 with counted := [p.answered] }
    p.answered ∈ (s.router 40).counted ∧ (Router.uninstall (s.router 40) { p.entry false with summit := p.full.getD p.orig } .e).isSome = true := by
  decide +kernel
theorem witness_pub_turns : let p := { hopping 0 with dest := 40 }
    hostTile p.dest.toNat = 40 ∧ (routing p).inOrder 40 0 p = true ∧ p.poison = false ∧ (routing p).seenAt p = false ∧
    (routing p).keepOf p.job.toNat (nameTens p.name) = 0 := by decide +kernel

/-- A packet at the head of summit 40's order. -/
def atSummit (typ : BitVec 4) : Packet := { hopping typ with place := .summit 40, routed := true, dest := 40 }
/-- The state in which it stands: the summit's name range lies at quay 2. -/
def summiting (typ : BitVec 4) : State :=
  let s := routing (atSummit typ)
  (s.setQuay 2 { s.quay 2 with ranges := [{ job := 1, tens := 7, quay := 2, esz := 2, row0 := 0, row1 := 9, col0 := 0, col1 := 9, base := 0x50000, nbc := 4, brows := 4, bcols := 4 }] }).setJob
    1 { s.job 1 with slist := [40] }

theorem witness_summit : ∀ typ ∈ [(1 : BitVec 4), 2, 4, 7, 8], AtSummit (summiting typ) 0 40 (atSummit typ) typ := by
  intro typ h
  fin_cases h <;> exact ⟨by decide +kernel, by decide +kernel, by decide +kernel, by decide +kernel, by decide +kernel, by decide +kernel, by decide +kernel, by decide +kernel⟩
theorem witness_summit_apply : let s := summiting 4
    let p := atSummit 4
    (s.spur (spurOf 40)).retained = [] ∧ (s.spur (spurOf 40)).streams = [] ∧ s.remoteOf 1 7 = none ∧ (∀ n, (routing (atSummit 1)).rangeQuay 1 n = none) ∧
    (Router.install (s.router 40) ((atSummit 1).entry true) .w).isSome = true ∧ p.row1 = nameRow p.name ∧ p.col1 = nameCol p.name ∧
    s.summitOf 1 p.name = 40 ∧ s.rangeQuay 1 p.name = some 2 := by
  refine ⟨by decide +kernel, by decide +kernel, by decide +kernel, fun n => ?_, by decide +kernel, by decide +kernel, by decide +kernel, by decide +kernel, by decide +kernel⟩
  rfl
/-- The FALL of that name at its quay, and a page of the job whose leaf holds the block. -/
def falling : State :=
  let s := withPacket (summiting 4) { hopping 5 with place := .quay 2, routed := true, dest := BitVec.ofNat 17 (quayCode 2), orig := 40 }
  let s := s.setJob 1 { s.job 1 with ptroot := 0x100000 }
  let s := s.setQuay 2 { s.quay 2 with falls := [{ job := 1, name := (hopping 5).name, tag := 0x44, summit := 40, ent := (s.quay 2).ranges.headD { job := 0, tens := 0, quay := 0, esz := 0, row0 := 0, row1 := 0, col0 := 0, col1 := 0, base := 0, nbc := 0, brows := 0, bcols := 0 } }] }
  ((((s.pwrite 0x100000 (leBytes 8 0x102001)).pwrite 0x102000 (leBytes 8 0x104001)).pwrite 0x104000 (leBytes 8 0x106001)).pwrite 0x106000 (leBytes 8 0x108001)).pwrite
    0x108028 (leBytes 8 0x190007)
theorem witness_fall : let s := { summiting 4 with packets := falling.packets }
    let p := { hopping 5 with place := .quay 2, routed := true, dest := BitVec.ofNat 17 (quayCode 2), orig := 40 }
    s.packets[0]? = some p ∧ s.gating 40 1 = false ∧ p.ident ∉ (s.quay 2).seen ∧ (s.quay 2).falls = [] ∧ (s.quay 2).ranges.length = 1 := by decide +kernel
theorem witness_fall_publish : falling.walk 1 (0x50000 + (2 * 4 + 3) * 64) = .leaf 0x190007 16 ∧ leafRem 0x190007 = false ∧
    (0x50000 + (2 * 4 + 3) * 64) % 2 ^ 16 + 64 ≤ 2 ^ 16 ∧ (falling.quay 2).falls.length = 1 ∧ falling.gating 40 1 = false := by decide +kernel
theorem witness_retained : let x : Retained := { job := 1, name := 5, tag := 0, summit := 40, payload := [], tick := 0, keep := 3 }
    let s := { up.setSpur 0 { up.spur 0 with retained := [x] } with tkcnt := 3 }
    (s.spur 0).retained[0]? = some x ∧ x.keep.toNat ≤ (s.tkcnt - x.tick).toNat := by decide +kernel
theorem witness_open : let x : StreamRec := { job := 1, name := (hopping 8).name, summit := 40, receiver := some 9, sender := none, held := 4 }
    (((summiting 8).setSpur (spurOf 40) { (summiting 8).spur (spurOf 40) with streams := [x] }).spur (spurOf 40)).streams = [x] ∧ x.sender = none ∧
    x.receiver = some 9 := by decide +kernel

theorem witness_deposit : let r : SubRec := { addr := 0x5000, bop := BitVec.ofNat 64 (0x44 + 9 * 2 ^ 32), tens := 7, mode := 0, row0 := 2, row1 := 2, col0 := 3, col1 := 3, dst := 0x3000, cap := 4, counted := [], strm := none, held := [] }
    let p := { hopping 0 with place := .tile 0, payload := [0x1122] }
    let s := withPacket (demo [] fun x => { x with subs := [r] }) p
    s.packets[0]? = some p ∧ s.framesRun 0 = true ∧ p.ident ∉ (s.tile 0).taken ∧ p.job = (s.tile 0).job ∧ (s.tile 0).subs = [r] ∧ r.names = [p.name] ∧
    r.holds p.name = true ∧ tagMatches r.mode r.tag p.tag = true ∧ 1 ≤ r.cap.toNat ∧ r.dst.toNat + 32 ≤ frameBase ∧ s.depositView 0 r = .linear ∧
    (s.tile 0).marks = [] ∧ (s.jobOf 0).watchHit false r.dst.toNat 32 = none ∧ r.indexOf p.name = 0 := by decide +kernel
theorem witness_stream_deposit : let p := { hopping 6 with place := .tile 0, payload := [0x1122], sseq := 5 }
    let r : SubRec := { addr := 0x5000, bop := BitVec.ofNat 64 (0x44 + 9 * 2 ^ 32), tens := 7, mode := 0, row0 := 2, row1 := 2, col0 := 3, col1 := 3, dst := 0x3000, cap := 4, counted := [], strm := some (5, 6), held := [{ p with sseq := 6 }, p] }
    let s := demo [] fun x => { x with subs := [r] }
    (s.tile 0).subs[0]? = some r ∧ r.held.find? (fun q => q.sseq == (r.strm.getD (0, 0)).1) = some p ∧ s.depositView 0 r = .linear ∧
    r.dst.toNat + 32 * (6 % r.cap.toNat) + 32 ≤ frameBase ∧ (s.jobOf 0).watchHit false (r.dst.toNat + 64) 32 = none := by decide +kernel
theorem witness_answer : let r : SubRec := { addr := 0x5000, bop := 0x44, tens := 7, mode := 0, row0 := 2, row1 := 2, col0 := 3, col1 := 3, dst := 0x3000, cap := 4, counted := [], strm := none, held := [] }
    let o : SubOp := { op := 5, unsub := false, sub := r, waits := [(40, 77)], status := 0, goal := .berth 0 0, tidx := 0, inc := 0 }
    let p := { packetOf 3 with aux := 77, status := 0 }
    let s := withPacket (demo [] fun x => { x with subOps := [o] }) p
    Arrives s 0 0 p 3 ∧ (s.tile 0).subOps = [o] ∧ o.waits = [(40, p.aux)] ∧ (s.berth 0 0).bind = 0 :=
  ⟨⟨by decide +kernel, by decide +kernel, by decide +kernel, by decide +kernel, by decide +kernel, by decide +kernel, by decide +kernel, by decide +kernel⟩,
    by decide +kernel, by decide +kernel, by decide +kernel⟩
/-- A tile with one staged copy. -/
def staging (again : Bool) (p : Packet) : State :=
  withPacket (demo [] fun x => { x with egress := [{ pkt := { hopping 0 with oseq := 3, payload := [1, 2], orig := 0 }, resends := 3, who := noIssuer, inc := 0, again }] }) p
theorem witness_staged : let p := { packetOf 12 with aux := 3, status := 0 }
    let s := staging false p
    s.packets[0]? = some p ∧ s.framesRun 0 = true ∧ p.job = (s.tile 0).job ∧ codeQuay 0 = none ∧ (s.tile 0).egress.length = 1 ∧
    (((s.tile 0).egress.map fun e => e.pkt.oseq) = [p.aux]) ∧ ((staging false { packetOf 11 with aux := 3 }).refresh = []) ∧ s.tileLive 0 = true := by
  decide +kernel

/-! ### Links, Niesk ports, reductions -/

/-- A SPAWN packet granted to the local port of router 40, `i` of its flits sent. -/
def passing (i : Option Nat) : Packet :=
  { typ := 10, vc := 0, job := 1, place := .router 40, orig := 5, oseq := 3, dest := 40, inp := .w, routed := true, want := [{ port := .l, sent := i }], payload := [7] }
theorem witness_port : let s := withPacket (demo []) (passing none)
    s.routerLive 40 = true ∧ s.packets = [passing none] ∧ (passing none).want = [{ port := .l }] ∧ 0 < (s.field (fieldOf 40)).arba.toNat := by decide +kernel
theorem witness_port_flit : let q := { passing none with want := [], routed := false, place := .tile 40, left := 3, due := 0, fed := some (40, .l) }
    let s := { demo [] with packets := [passing (some 1), q] }
    s.routerLive 40 = true ∧ q.place = .tile (passing (some 1)).dest.toNat ∧ s.ingressUsed 40 + 32 ≤ 32768 ∧ 1 < 3 + (passing (some 1)).payload.length := by
  decide +kernel
/-- A link from router 39 to router 40 whose sender has one flit more to send, with sequence `fs`; NAK stands where `nak` is true. -/
def linking (fs : BitVec 7) (nak : Bool) : State :=
  let s := demo []
  let s := s.setRouter 39 ((s.router 39).setLink .e { (s.router 39).link .e with fseq := 6, replay := [{ data := 5, vc := 0, fseq := 4 }, { data := 9, vc := 0, fseq := fs }], next := 1, nak })
  s.setRouter 40 ((s.router 40).setLink .w { (s.router 40).link .w with expect := 5, replay := [{ data := 5, vc := 0, fseq := 4 }] })
theorem witness_link : ((linking 5 false).senderOf 40 .w).isSome = true ∧ (match (linking 5 false).senderOf 40 .w with
      | some (n, e) => n == 39 && e.replay[e.next]? == some { data := 9, vc := 0, fseq := 5 } && ((((linking 5 false).router 40).link .w).takeAck e.word.2).expect == 5
      | none => false) = true ∧
    (match (linking 6 false).senderOf 40 .w with | some (_, e) => ((((linking 6 false).router 40).link .w).takeAck e.word.2).expect != 6 | none => false) = true ∧
    LinkWord.good { data := 9, side := 0 } = false ∧ (match (linking 5 true).senderOf 40 .w with
      | some (_, e) => e.nak && decide (((((linking 5 true).router 40).link .w).acked e.expect).fails < ((linking 5 true).field (fieldOf 40)).nretry.toNat) | none => false) = true ∧
    (((linking 5 false).router 40).link .w).replay ≠ [] := by decide +kernel

/-- A Niesk port that is up, with a packet for it. -/
def porting : State :=
  let s := { demo [] with booted := true }
  let s := s.setQuay 2 { s.quay 2 with en := true, npup := true, peer := 7, nppeer := 0x123456789A, npexpect := 5 }
  withPacket s { passing none with place := .niesk 2, want := [], dmod := 7 }
/-- A frame in order that acknowledges one that the port keeps. -/
def ackFrame : NieskFrame := { etype := 0x88B5, good := true, fseq := 5, ack := 9, vc := 0, cred := 3, flits := [1] }
theorem witness_niesk_send : (porting.quay 2).sends = true ∧ (porting.quay 2).npreplay = [] ∧ 4 ≤ (porting.quay 2).npcred[0] ∧
    0 < (porting.field (quayRim 2).1).arba.toNat := by decide +kernel
theorem witness_niesk_receive : let y := { porting.quay 2 with npreplay := [{ fseq := 9, flits := [1], vc := 0, cred := 0, ack := 0, dst := 0, etype := 0, src := 0, ends := [] }] }
    let s := porting.setQuay 2 y
    (s.quay 2).en = true ∧ (s.quay 2).npdead = false ∧ ackFrame.etype = (s.quay 2).etype ∧ (∃ f ∈ (s.quay 2).npreplay, (ackFrame.ack - f.fseq).toNat < 2 ^ 31) ∧
    ackFrame.fseq = (s.quay 2).npexpect ∧ takePacket ((s.quay 2).npflits[0] ++ ackFrame.flits) = none ∧ (s.quay 2).npreplay ≠ [] :=
  ⟨by decide +kernel, by decide +kernel, by decide +kernel, ⟨_, List.mem_singleton.mpr rfl, by decide +kernel⟩, by decide +kernel, by decide +kernel, by decide +kernel⟩
/-- A reduction of tensor 7 at node 320, modules 0 and 4 its members, and a partial for it from module `omod`. -/
def reducing (omod : BitVec 19) : State :=
  { withPacket (demo []) { hopping 0 with place := .node 320, vc := 2, omod, payload := [1, 2] } with
    reductions := [{ job := 1, iten := 7, oten := 8, typ := 0, planes := 0, ctx := 0, iter0 := 0, iter1 := 100, nper := 2, kind := 0, port := 0, ltn := 40, dir := 0, mlist := [0, 4], stat := 0x7000, row1 := 9, col1 := 9 }] }
theorem witness_partial : ((reducing 4).reductionsOf 320).length = 1 ∧ (match (reducing 4).reductionsOf 320, (reducing 4).packets with
    | [(_, x)], [p] => x.takes p.job p.name && (reducing 4).nodeRoom 320 p && decide (tagCtx p.tag = x.ctx) && decide (p.omod ∈ x.mlist) && decide (1 < x.expected) &&
        decide (0 < x.nper.toNat) && (x.of p.name).isEmpty && decide (p.ident ∉ ((reducing 4).node 320).seen)
    | _, _ => false) = true ∧ (5 : BitVec 19) ∉ ([0, 4] : List (BitVec 19)) := by decide +kernel

/-! ### Memory transactions and homes -/

/-- An access of berth 0 to four bytes of page 5 (of page 6, which goes past the caches, where `past`). -/
def memOp (what : MemWhat) (past : Bool := false) : MemOp := { id := 900, b := 0, bind := 0, ea := if past then 0x60024 else 0x50024, n := 4, what }
/-- The load's landing. -/
def landsOp : Landing := { dest := .g 3, pos := 9, data := 0, flags := 0, wait := .memory 900 0 4 true, buffered := true }
/-- A state with that access outstanding. -/
def waitingFor (o : MemOp) (g : Tile → Tile := id) : State :=
  { demo [] fun x => g { inBerth (fun y => { y with landing := [landsOp] }) x with
    ops := [o], tlb := [{ job := 1, page := 5, bits := 16, leaf := 0x90007 }, { job := 1, page := 6, bits := 16, leaf := 0x9000F }] } with booted := true }
/-- The access as its translation places it. -/
def locatedOp (s : State) : MemOp := match s.located 0 ((s.tile 0).ops.headD (memOp .load)) with | .ok o => o | .error _ => memOp .load
/-- A sector of that page, some of it held and dirty. -/
def sectorOf (held dirty : BitVec 32) : Sector := { key := 0x90024 / 32, data := 0x0102030405060708, have_ := held, dirty, lock := none }
/-- A check of `Pending` and `Global`. -/
def pendingNow (s : State) (o : MemOp) : Bool :=
  let o' := locatedOp s
  s.tileLive 0 && o'.off == 0 && (s.berth 0 o'.b).bind == o'.bind && o'.same o' == o.same o' && o'.win == false && o'.rel.isNone && o'.acq.isNone &&
    decide (0 < o'.n) && decide (o'.key % 32 + o'.n ≤ 32)

theorem pending_now {s : State} {o : MemOp} (u : s.stuck = none) (a : (s.tile 0).ops = [o]) (w : o.phase = .waiting ∧ (s.tile 0).uncopied o = false)
    (l : s.located 0 o = .ok (locatedOp s)) (m : (locatedOp s).mac = none) (h : pendingNow s o = true) :
    Pending s 0 o (locatedOp s) ∧ Global (locatedOp s) := by
  simp only [pendingNow, Bool.and_eq_true, beq_iff_eq, decide_eq_true_eq, Option.isNone_iff_eq_none] at h
  obtain ⟨⟨⟨⟨⟨⟨⟨⟨h1, h2⟩, h3⟩, h4⟩, h5⟩, h6⟩, h7⟩, h8⟩, h9⟩ := h
  exact ⟨⟨u, h1, a, w, l, m, h2, h3, h4⟩, h5, h6, h7, h8, h9⟩
theorem located_of {s : State} {o : MemOp} (a : (s.tile 0).ops = [o]) (h : (match s.located 0 o with | .ok _ => true | .error _ => false) = true) :
    s.located 0 o = .ok (locatedOp s) := by
  simp only [locatedOp, a, List.headD_cons]
  split at h
  · rename_i e; rw [e]
  · cases h
theorem witness_load_pending : let s := waitingFor (memOp .load) fun x => { x with tdc := [sectorOf 0xFFFFFFFF 0] }
    Pending s 0 (memOp .load) (locatedOp s) ∧ Global (locatedOp s) :=
  pending_now (by decide +kernel) (by decide +kernel) (by decide +kernel) (located_of (by decide +kernel) (by decide +kernel)) (by decide +kernel)
    (by decide +kernel)
theorem witness_load_start : let s := waitingFor (memOp .load) fun x => { x with tdc := [sectorOf 0xFFFFFFFF 0] }
    let o' := locatedOp s
    o'.what = .load ∧ bypasses o'.leaf = false ∧ (s.tile 0).wb = [] ∧ (s.berth 0 o'.b).landing = [landsOp] ∧ landsOp.wait = .memory o'.id 0 4 true ∧
    4 = o'.n ∧ (sectorOf 0xFFFFFFFF 0).key = o'.key / 32 ∧ (∀ i < o'.n, (sectorOf 0xFFFFFFFF 0).have_.getLsbD (o'.key % 32 + i) = true) ∧
    s.poisoned o'.key o'.n = false ∧ (s.tile 0).fetches = [] ∧ ((waitingFor (memOp .load)).tile 0).tdc = [] := by decide +kernel
theorem witness_store_pending : let o := memOp (.store [1, 2, 3, 0x84])
    Pending (waitingFor o) 0 o (locatedOp (waitingFor o)) ∧ Global (locatedOp (waitingFor o)) :=
  pending_now (by decide +kernel) (by decide +kernel) (by decide +kernel) (located_of (by decide +kernel) (by decide +kernel)) (by decide +kernel)
    (by decide +kernel)
theorem witness_store_past : let o := memOp (.store [1, 2, 3, 0x84]) true
    Pending (waitingFor o) 0 o (locatedOp (waitingFor o)) ∧ Global (locatedOp (waitingFor o)) :=
  pending_now (by decide +kernel) (by decide +kernel) (by decide +kernel) (located_of (by decide +kernel) (by decide +kernel)) (by decide +kernel)
    (by decide +kernel)
theorem witness_store_start : let o := memOp (.store [1, 2, 3, 0x84])
    let p := memOp (.store [1, 2, 3, 0x84]) true
    (locatedOp (waitingFor o)).what = .store [1, 2, 3, 0x84] ∧ (locatedOp (waitingFor o)).n = 4 ∧ bypasses (locatedOp (waitingFor o)).leaf = false ∧
    ((waitingFor o).tile 0).tdc = [] ∧ (locatedOp (waitingFor p)).what = .store [1, 2, 3, 0x84] ∧ bypasses (locatedOp (waitingFor p)).leaf = true := by
  decide +kernel
theorem witness_fence : let o := { memOp .fence with rel := some .wafer, acq := some .wafer }
    let s := waitingFor o
    Pending s 0 o (locatedOp s) ∧ (locatedOp s).what = .fence ∧ (locatedOp s).rel = (locatedOp s).acq ∧ (s.tile 0).wb = [] ∧ (s.tile 0).tdc = [] ∧
    (locatedOp s).rel = some .wafer ∧ s.liveSlices 0 ≠ [] ∧
    (locatedOp (waitingFor { memOp .fence with rel := some .tile, acq := some .tile })).rel = some .tile :=
  ⟨⟨by decide +kernel, by decide +kernel, by decide +kernel, by decide +kernel, located_of (by decide +kernel) (by decide +kernel), by decide +kernel⟩,
    by decide +kernel, by decide +kernel, by decide +kernel, by decide +kernel, by decide +kernel, by decide +kernel, by decide +kernel⟩
/-- That access sent, and a response to it that has reached the tile. -/
def answering (what : MemWhat) (m : MemTx) (pl : List (BitVec 256)) (g : Tile → Tile := id) : State :=
  withPacket (waitingFor { memOp what with key := 0x90024, leaf := 0x90007, phase := .sent, waits := [33] } g)
    { job := 1, vc := 1, place := .tile 0, dest := 0, orig := 40, mt := some m, payload := pl }
/-- The response of that state. -/
def comer (s : State) : Packet := s.packets.headD {}
/-- A check of `Comes`. -/
def comesNow (s : State) (m : MemTx) (kind : BitVec 4) : Bool :=
  let p := comer s
  s.stuck.isNone && (s.field (fieldOf 0)).powered && s.sliceLive 0 && p.place == .tile 0 && p.left == 0 && p.mt == some m && m.mkind == kind && m.verb == .data
theorem comes_now {s : State} {m : MemTx} {kind : BitVec 4} (l : s.packets[0]? = some (comer s)) (h : comesNow s m kind = true) :
    Comes s 0 0 (comer s) m kind := by
  simp only [comesNow, Bool.and_eq_true, beq_iff_eq, Option.isNone_iff_eq_none] at h
  obtain ⟨⟨⟨⟨⟨⟨⟨h1, h2⟩, h3⟩, h4⟩, h5⟩, h6⟩, h7⟩, h8⟩ := h
  exact ⟨h1, ⟨h2, h3⟩, l, ⟨h4, h5⟩, h6, h7, h8⟩
theorem witness_response : let m : MemTx := { mkind := 1, tid := 33, locks := [6], n := 1, key := 0x90020 }
    let s := answering .load m [0x1234]
    let o := (s.tile 0).ops.headD (memOp .load)
    Comes s 0 0 (comer s) m 1 ∧ ((comer s).payload = [0x1234] ∧ m.locks = [6] ∧ (s.tile 0).ops = [o] ∧ o.phase = .sent ∧ o.waits = [m.tid] ∧
      o.stale = false ∧ o.what = .load ∧ o.mac = none ∧ o.off = 0) ∧ Global o ∧ ((s.tile 0).fetches = [] ∧ (s.tile 0).wb = [] ∧ (s.tile 0).tdc = [] ∧
      (s.berth 0 o.b).bind = o.bind ∧ (s.berth 0 o.b).landing = [landsOp] ∧ landsOp.wait = .memory o.id 0 o.n true ∧ s.poisoned o.key o.n = false) :=
  ⟨comes_now (by decide +kernel) (by decide +kernel), by decide +kernel, ⟨by decide +kernel, by decide +kernel, by decide +kernel, by decide +kernel, by decide +kernel⟩,
    by decide +kernel⟩
theorem witness_atomic_response : let m : MemTx := { mkind := 5, tid := 33, value := 0x1FFFFFFF0 }
    let s := answering (.rmw .add 3 4) m []
    let o := (s.tile 0).ops.headD (memOp .load)
    Comes s 0 0 (comer s) m 5 ∧ ((s.tile 0).ops = [o] ∧ o.phase = .sent ∧ o.waits = [m.tid] ∧ o.what = .rmw .add 3 4 ∧ o.mac = none ∧ o.off = 0) ∧
      Global o ∧ (o.n ≤ 8 ∧ (s.tile 0).fetches = [] ∧ (s.berth 0 o.b).bind = o.bind ∧ (s.berth 0 o.b).landing = [landsOp] ∧ landsOp.wait = .memory o.id 0 o.n true ∧
      s.poisoned o.key o.n = false) :=
  ⟨comes_now (by decide +kernel) (by decide +kernel), by decide +kernel, ⟨by decide +kernel, by decide +kernel, by decide +kernel, by decide +kernel, by decide +kernel⟩,
    by decide +kernel⟩
theorem witness_acknowledgement : let m : MemTx := { mkind := 3, tid := 33 }
    let s := answering (.store [1, 2, 3, 4]) m [] fun x => { x with wb := [{ tid := 33, sector := sectorOf 1 1 }] }
    let t := answering (.store [1, 2, 3, 4]) m []
    let o := (t.tile 0).ops.headD (memOp .load)
    Comes s 0 0 (comer s) m 3 ∧ (s.tile 0).wb = [{ tid := m.tid, sector := sectorOf 1 1 }] ∧ Comes t 0 0 (comer t) m 3 ∧ (t.tile 0).wb = [] ∧
    (t.tile 0).ops = [o] ∧ o.phase = .sent ∧ o.waits = [m.tid] ∧ o.what = .store [1, 2, 3, 4] ∧ o.acq = none :=
  ⟨comes_now (by decide +kernel) (by decide +kernel), by decide +kernel, comes_now (by decide +kernel) (by decide +kernel), by decide +kernel,
    by decide +kernel, by decide +kernel, by decide +kernel, by decide +kernel, by decide +kernel⟩
theorem witness_slice_read : let m : MemTx := { mkind := 0, tid := 12, key := 0x90020, n := 1 }
    let s := answering .load m []
    let s := s.setSpur (spurOf 0) { s.spur (spurOf 0) with sectors := [sectorOf 0xFFFFFFFF 0] }
    Comes s 0 0 (comer s) m 0 ∧ m.n = 1 ∧ (s.spur (spurOf 0)).wb = [] ∧ (s.spur (spurOf 0)).sectors = [sectorOf 0xFFFFFFFF 0] ∧
    (sectorOf 0xFFFFFFFF 0).key = m.key / 32 ∧ (sectorOf 0xFFFFFFFF 0).have_ = BitVec.allOnes 32 :=
  ⟨comes_now (by decide +kernel) (by decide +kernel), by decide +kernel, by decide +kernel, by decide +kernel, by decide +kernel, by decide +kernel⟩
theorem witness_slice_write : let m : MemTx := { mkind := 2, tid := 12, key := 0x90020, n := 1, mask := 0xF0 }
    let s := answering .load m [0x1234]
    Comes s 0 0 (comer s) m 2 ∧ (comer s).payload = [0x1234] ∧ (s.spur (spurOf 0)).sectors = [] ∧ (s.spur (spurOf 0)).retained = [] :=
  ⟨comes_now (by decide +kernel) (by decide +kernel), by decide +kernel, by decide +kernel, by decide +kernel⟩
theorem witness_evict : let s := waitingFor (memOp .load) fun x => { x with ops := [], tdc := [sectorOf 0xFF 0xF] }
    s.stuck = none ∧ s.tileLive 0 = true ∧ (s.tile 0).tdc[0]? = some (sectorOf 0xFF 0xF) ∧ (sectorOf 0xFF 0xF).dirty ≠ 0 ∧
    (s.tile 0).leaves (sectorOf 0xFF 0xF).key = false := by decide +kernel
/-- A page request of the tile, and the translation that answers it. -/
def missOf (write : Bool) : XMiss := { job := 1, vpage := 6, write }
def pageOf : TlbEnt := { job := 1, page := 6, bits := 16, leaf := 7 }
theorem witness_translation : let m : MemTx := { mkind := 7, tid := 33, verb := .found (some pageOf) }
    let s := answering .load m [] fun x => { x with misses := [{ m := missOf false, tid := some 33 }] }
    s.stuck = none ∧ (s.field (fieldOf 0)).powered = true ∧ s.sliceLive 0 = true ∧ s.packets[0]? = some (comer s) ∧ (comer s).place = .tile 0 ∧
    (comer s).left = 0 ∧ (comer s).mt = some m ∧ (s.tile 0).misses = [{ m := missOf false, tid := some m.tid }] ∧ pageOf.job = (s.tile 0).job := by
  decide +kernel
/-- A memory transaction at quay 3. -/
def quayed (m : MemTx) (pl : List (BitVec 256)) : State :=
  withPacket { demo [] with booted := true } { job := 1, vc := 1, place := .quay 3, orig := 3, mt := some m, payload := pl }
/-- A check of `AtQuay`. -/
def quayNow (s : State) (m : MemTx) (kind : BitVec 4) : Bool :=
  let p := comer s
  s.stuck.isNone && p.place == .quay 3 && p.left == 0 && p.mt == some m && m.mkind == kind && s.mayServe 0 3 p m
theorem quay_now {s : State} {m : MemTx} {kind : BitVec 4} (l : s.packets[0]? = some (comer s)) (h : quayNow s m kind = true) :
    AtQuay s 0 3 (comer s) m kind := by
  simp only [quayNow, Bool.and_eq_true, beq_iff_eq, Option.isNone_iff_eq_none] at h
  obtain ⟨⟨⟨⟨⟨h1, h2⟩, h3⟩, h4⟩, h5⟩, h6⟩ := h
  exact ⟨h1, l, ⟨h2, h3⟩, h4, h5, h6⟩
theorem witness_home_read : let m : MemTx := { mkind := 0, tid := 9, key := 0x90020, n := 2, so := true }
    AtQuay (quayed m []) 0 3 (comer (quayed m [])) m 0 ∧ m.key % 32 = 0 ∧ m.key + 32 * m.n ≤ 2 ^ 44 :=
  ⟨quay_now (by decide +kernel) (by decide +kernel), by decide +kernel, by decide +kernel⟩
theorem witness_home_write : let m : MemTx := { mkind := 2, tid := 9, key := 0x90024, n := 1, mask := 0xF0 }
    let s := quayed m [0x1234]
    AtQuay s 0 3 (comer s) m 2 ∧ NoWatch s ∧ Apart s ∧ (comer s).payload = [0x1234] ∧ m.key < 2 ^ 44 :=
  ⟨quay_now (by decide +kernel) (by decide +kernel), watch_none (by decide +kernel), apart_default (by decide +kernel), by decide +kernel, by decide +kernel⟩
theorem witness_home_atomic : let m : MemTx := { mkind := 4, tid := 9, key := 0x90028, n := 8, verb := .rmw .add 0x77 1 }
    let s := quayed m []
    AtQuay s 0 3 (comer s) m 4 ∧ NoWatch s ∧ Apart s ∧ m.verb = .rmw .add 0x77 1 ∧ (m.n = 4 ∨ m.n = 8) ∧ m.key % m.n = 0 ∧ m.key + 8 ≤ 2 ^ 44 :=
  ⟨quay_now (by decide +kernel) (by decide +kernel), watch_none (by decide +kernel), apart_default (by decide +kernel), by decide +kernel, by decide +kernel,
    by decide +kernel, by decide +kernel⟩
theorem witness_home_lock : let m (v : MemVerb) : MemTx := { mkind := 4, tid := 9, key := 0x90028, n := 32, verb := v }
    AtQuay (quayed (m (.writeLock 7)) []) 0 3 (comer (quayed (m (.writeLock 7)) [])) (m (.writeLock 7)) 4 ∧
    AtQuay (quayed (m .readLock) []) 0 3 (comer (quayed (m .readLock) [])) (m .readLock) 4 ∧ (m .readLock).key < 2 ^ 44 :=
  ⟨quay_now (by decide +kernel) (by decide +kernel), quay_now (by decide +kernel) (by decide +kernel), by decide +kernel⟩
theorem witness_miss : let s := waitingFor (memOp .load) fun x => { x with ops := [], misses := [{ m := missOf true }] }
    let s := s.setSpur (spurOf 0) { s.spur (spurOf 0) with tc := [pageOf] }
    s.stuck = none ∧ s.tileLive 0 = true ∧ (s.tile 0).misses[0]? = some { m := missOf true } ∧ (s.spur (spurOf 0)).tc = [pageOf] ∧
    pageOf.covers (missOf true).job ((missOf true).vpage * 65536) = true ∧ leafMig pageOf.leaf = false ∧
    ((waitingFor (memOp .load)).spur (spurOf 0)).tc = [] := by decide +kernel
theorem witness_join : let m : MemTx := { mkind := 6, tid := 9, verb := .walk (missOf false) }
    AtQuay (quayed m []) 0 3 (comer (quayed m [])) m 6 ∧ ((quayed m []).quay 3).walks = [] :=
  ⟨quay_now (by decide +kernel) (by decide +kernel), by decide +kernel⟩

/-- A walk of quay 3 that tile 3 joined, over a table whose leaf for page 6 has MIG as told. -/
def walking (write held mig : Bool) : State :=
  let s := { demo [] with booted := true }
  let s := s.setJob 1 { s.job 1 with ptroot := 0x100000 }
  let w (s : State) (a e : Nat) : State := s.pwrite a (leBytes 8 e)
  let s := w (w (w (w s 0x100000 0x102001) 0x102000 0x104001) 0x104000 0x106001) 0x106000 0x108001
  let s := w s (0x108000 + 8 * 6) (0x190007 + if mig then 1024 else 0)
  s.setQuay 3 { s.quay 3 with walks := [{ job := 1, region := 0, joined := [(3, 9, missOf write)], held }] }
/-- The leaf of that walk. -/
def leafOf (s : State) : Word × Nat := match s.walk 1 (6 * 65536) with | .leaf e b => (e, b) | _ => (0, 0)
theorem leaf_of {s : State} (h : (match s.walk 1 (6 * 65536) with | .leaf _ _ => true | _ => false) = true) :
    s.walk 1 (6 * 65536) = .leaf (leafOf s).1 (leafOf s).2 := by
  simp only [leafOf]
  split at h
  · rename_i e; rw [e]
  · cases h
theorem witness_walk : let s := walking true false false
    WalkEnds s 3 0 3 9 { job := 1, region := 0, joined := [(3, 9, missOf true)], held := false } (missOf true) (leafOf s).1 (leafOf s).2 ∧
    leafMig (leafOf s).1 = false :=
  ⟨⟨by decide +kernel, by decide +kernel, by decide +kernel, leaf_of (by decide +kernel)⟩, by decide +kernel⟩
theorem witness_walk_migrating : let s := walking true true true
    WalkEnds s 3 0 3 9 { job := 1, region := 0, joined := [(3, 9, missOf true)], held := true } (missOf true) (leafOf s).1 (leafOf s).2 ∧
    leafMig (leafOf s).1 = true :=
  ⟨⟨by decide +kernel, by decide +kernel, by decide +kernel, leaf_of (by decide +kernel)⟩, by decide +kernel⟩
/-- An arrival at a barrier object of three, some of which have arrived. -/
def barrierAt (arrived : Nat) : State :=
  { demo [] fun x => { x with pad := x.pad.writeBytes 0x4000 (leBytes 4 0xBA550001 ++ leBytes 4 6 ++ leBytes 4 3 ++ leBytes 4 arrived) } with
    arrivals := [{ t := 0, b := 0, bind := 0, tidx := 0, tag := 0, frame := 9, job := 1, inc := 0, addr := W 0x4000, win := true, pa := 0x4000, cap := 6 }] }
theorem witness_arriving : ∀ n ∈ [1, 2], ∃ a, Arriving (barrierAt n) 0 a 6 3 n := by
  intro n h
  simp only [List.mem_cons, List.not_mem_nil, or_false] at h
  rcases h with rfl | rfl
  · exact ⟨_, by decide +kernel, rfl, by decide +kernel, by decide +kernel, by decide +kernel, by decide +kernel, by decide +kernel, by decide +kernel⟩
  · exact ⟨_, by decide +kernel, rfl, by decide +kernel, by decide +kernel, by decide +kernel, by decide +kernel, by decide +kernel, by decide +kernel⟩
theorem witness_notice : let w : Waiter := { t := 0, b := 0, bind := 0, addr := 0, win := false, pa := 0, cap := 0 }
    let s := { demo [] with notices := [w], replies := [{ t := 0, b := 4 }] }
    s.stuck = none ∧ s.notices[0]? = some w ∧ (s.tile w.t).powered = true ∧ (s.jobOf w.t).blocks = [] ∧ w.bind = (s.berth w.t w.b).bind ∧
    (s.berth w.t w.b).status = .bound ∧ s.replies[0]? = some { t := 0, b := 4 } ∧ (s.berth 0 4).status ≠ .trapped ∧ (s.berth 0 4).status ≠ .held := by
  decide +kernel
theorem witness_filhus : (quayed { mkind := 0, tid := 0 } []).booted = true ∧ populatedRun 0x90021 8 = true ∧ NoWatch (quayed { mkind := 0, tid := 0 } []) ∧
    Apart (quayed { mkind := 0, tid := 0 } []) :=
  ⟨by decide +kernel, by decide +kernel, watch_none (by decide +kernel), apart_default (by decide +kernel)⟩

/-! ### Time-outs, sweeps and a dead port -/

/-- A field to be swept. -/
def sweepable : State :=
  let s := { State.reset with booted := true, retire := 5 }
  s.setField 1 { s.field 1 with powered := true, sweep := true }
/-- A retired tile. -/
def retiredTile : Tile := { sweepable.tile 3000 with retired := true }
/-- That field with every tile of the base configuration retired. -/
def sweeping : State := { sweepable with tiles := (List.range 1024).map fun i => (2048 + i, retiredTile) }
theorem tile_with (s : State) (ts : SMap Tile) (k : Nat) : { s with tiles := ts }.tile k = SMap.get {} ts k := rfl
theorem get_map (d x : Tile) (c k : Nat) : ∀ l : List Nat, k ∈ l → SMap.get d (l.map fun i => (c + i, x)) (c + k) = x
  | i :: l, h => by
    simp only [List.map_cons, SMap.get]
    split
    · rfl
    · exact get_map d x c k l ((List.mem_cons.mp h).resolve_left (by omega))
theorem witness_reachability_sweep : sweeping.stuck = none ∧ (sweeping.field 1).sweep = true ∧ (sweeping.field 1).powered = true ∧ fieldOf sweeping.retire.toNat ≠ 1 ∧
    ∀ i < 1088, (sweeping.tile (2048 * 1 + i)).retired = true ∨ sweeping.enabled (2048 * 1 + i) = false := by
  refine ⟨rfl, by decide +kernel, by decide +kernel, by decide +kernel, fun i h => ?_⟩
  by_cases a : i < 1024
  · left
    rw [sweeping, tile_with, get_map _ _ _ _ _ (List.mem_range.mpr a), retiredTile]
  · right
    have e : sweeping.cairn.surplus = sweepable.cairn.surplus := rfl
    have g : sweepable.cairn.surplus = [] := by decide +kernel
    simp only [State.enabled, e, g, List.contains_nil, Bool.or_false, decide_eq_false_iff_not]
    omega
theorem witness_timeouts : let s := staging false { packetOf 12 with aux := 3 }
    s.stuck = none ∧ s.tileLive 0 = true ∧ codeQuay 0 = none ∧ ((s.tile 0).egress.map fun e => (e.stopped, e.resends)) = [(false, 3)] ∧
    (((linking 5 false).router 40).link .w).fails < ((linking 5 false).field (fieldOf 40)).nretry.toNat := by decide +kernel
/-- A port that keeps one frame, which ends a packet. -/
def dying : State :=
  let y := { porting.quay 2 with npreplay := [{ fseq := 9, flits := [1], vc := 0, cred := 0, ack := 0, dst := 0, etype := 0, src := 0, ends := [passing none] }] }
  { porting with packets := [] }.setQuay 2 y
theorem dying_unposted : Unposted dying := by
  have h : dying.jobs = [(1, dying.job 1)] := by decide +kernel
  have g : (dying.job 1).fq = 0 ∧ (dying.job 1).sq = 0 := by decide +kernel
  refine ⟨by decide +kernel, fun j => ?_⟩
  rw [State.job, h, SMap.get]
  split
  · exact g
  · exact ⟨rfl, rfl⟩
theorem witness_port_dead : dying.stuck = none ∧ Unposted dying ∧ dying.booted = true ∧ dying.packets = [] ∧ (dying.quay 2).en = true ∧
    (dying.quay 2).npdead = false ∧ ((dying.quay 2).npreplay.map fun f => f.ends) = [[passing none]] ∧ (passing none).bare = false :=
  ⟨by decide +kernel, dying_unposted, by decide +kernel, by decide +kernel, by decide +kernel, by decide +kernel, by decide +kernel,
    by decide +kernel⟩
theorem witness_wf_step : fetched.wf = true ∧ (match step fetched with
    | .next t => (t.berth 0 0).pos == (fetched.berth 0 0).pos + 1 && (t.berth 0 0).rg 4 == (fetched.berth 0 0).rg 1 + (fetched.berth 0 0).rg 6
    | _ => false) = true := by decide +kernel

end Sys2Proof.Tests
end

section
/-!
PROOFS. Registers and the landing of results: what a bundle's retirement makes of a g register when no result that is landing is absent.
-/
namespace Sys2Proof.Machine

/-! ### Writes to a g register -/

/-- A write to g0 is discarded (R32). -/
@[simp] theorem Berth.write_g_zero (y : Berth) (x : BitVec 512) : y.write (.g 0) x = y := rfl

/-- A result of another register leaves a g register (R25). -/
theorem Berth.rg_write_other (y : Berth) {d : Dest} {r : BitVec 6} (x : BitVec 512) (h : d ≠ .g r) : (y.write d x).rg r = y.rg r := by
  cases d with
  | g d =>
    have hr : r ≠ d := fun e => h (e ▸ rfl)
    simp [Berth.rg_write_g, hr]
  | v d => rfl
  | p d => simp only [Berth.write]; split <;> rfl

theorem Berth.rg_landOne_other (y : Berth) {e : Landing} {r : BitVec 6} (h : e.dest ≠ .g r) : (y.landOne e).rg r = y.rg r :=
  y.rg_write_other e.data h

theorem Berth.rg_landOne_same (y : Berth) {e : Landing} {r : BitVec 6} (hr : r ≠ 0) (h : e.dest = .g r) :
    (y.landOne e).rg r = e.data.setWidth 64 := by
  change (y.write e.dest e.data).rg r = _
  rw [h, Berth.rg_write_g, if_pos ⟨rfl, hr⟩]

/-- Results of other registers leave a g register. -/
theorem Berth.rg_landAll_other {r : BitVec 6} :
    ∀ (l : List Landing) (y : Berth), (∀ e ∈ l, e.dest ≠ .g r) → (l.foldl Berth.landOne y).rg r = y.rg r
  | [], _, _ => rfl
  | e :: l, y, h => by
    obtain ⟨he, hl⟩ := List.forall_mem_cons.mp h
    rw [List.foldl_cons, rg_landAll_other l _ hl, y.rg_landOne_other he]

/-- Of the results that land together, the one issued last in a g register is the value read (R37). -/
theorem Berth.rg_landAll_last {r : BitVec 6} (hr : r ≠ 0) (a z : List Landing) {e : Landing} (he : e.dest = .g r)
    (hz : ∀ d ∈ z, d.dest ≠ .g r) (y : Berth) : ((a ++ e :: z).foldl Berth.landOne y).rg r = e.data.setWidth 64 := by
  rw [List.foldl_append, List.foldl_cons, rg_landAll_other z _ hz, rg_landOne_same _ hr he]

/-! ### Retirement when no result is absent (R35) -/

/-- Every result that is landing has come. -/
def Berth.AllHere (y : Berth) : Prop := ∀ e ∈ y.landing, e.wait = .here

/-- The results that land at the retirement of the berth's bundle, in the order of issue. -/
def Berth.due (y : Berth) : List Landing := y.landing.filter fun e => decide (e.pos ≤ y.pos + 1)
/-- The results that are still landing after that retirement. -/
def Berth.left (y : Berth) : List Landing := y.landing.filter fun e => !decide (e.pos ≤ y.pos + 1)

theorem Berth.mem_due {y : Berth} {e : Landing} : e ∈ y.due ↔ e ∈ y.landing ∧ e.pos ≤ y.pos + 1 := by simp [Berth.due]
theorem Berth.mem_left {y : Berth} {e : Landing} : e ∈ y.left ↔ e ∈ y.landing ∧ y.pos + 1 < e.pos := by simp [Berth.left]

theorem Berth.AllHere.late_eq_false {y : Berth} (h : y.AllHere) : y.late = false := by
  simp only [Berth.late, List.any_eq_false]
  intro e he
  simp [h e he]

/-- A result lands once it is due, since none is absent. -/
theorem Berth.AllHere.lands_eq {y : Berth} (h : y.AllHere) : y.lands = fun e => decide (e.pos ≤ y.pos) :=
  funext fun e => by simp [Berth.lands, h.late_eq_false]

theorem Berth.AllHere.settle_eq {y : Berth} (h : y.AllHere) :
    y.settle = (y.landing.filter fun e => decide (e.pos ≤ y.pos)).foldl Berth.landOne
      { y with landing := y.landing.filter fun e => !decide (e.pos ≤ y.pos) } := by
  simp only [Berth.settle, h.lands_eq]

@[simp] theorem Berth.advance_pos (y : Berth) (w : Word) : (y.advance w).pos = y.pos := by
  obtain ⟨_, _, _, h⟩ := y.advance_frame w; rw [h]
@[simp] theorem Berth.advance_landing (y : Berth) (w : Word) : (y.advance w).landing = y.landing := by
  obtain ⟨_, _, _, h⟩ := y.advance_frame w; rw [h]
@[simp] theorem Berth.advance_rg (y : Berth) (w : Word) (r : BitVec 6) : (y.advance w).rg r = y.rg r := by
  obtain ⟨_, _, _, h⟩ := y.advance_frame w; rw [h]; rfl

@[simp] theorem Berth.write_landing (y : Berth) (d : Dest) (x : BitVec 512) : (y.write d x).landing = y.landing := by
  unfold Berth.write
  split
  · split <;> rfl
  · rfl
  · split <;> rfl

theorem Berth.landAll_landing : ∀ (l : List Landing) (y : Berth), (l.foldl Berth.landOne y).landing = y.landing
  | [], _ => rfl
  | e :: l, y => by rw [List.foldl_cons, landAll_landing l]; exact y.write_landing e.dest e.data

@[simp] theorem Berth.retired_pos (y : Berth) (w : Word) : (y.retired w).pos = y.pos + 1 := by simp [Berth.retired]

theorem Berth.AllHere.retired_landing {y : Berth} (h : y.AllHere) (w : Word) : (y.retired w).landing = y.left := by
  have h' : ({ y with pos := y.pos + 1, retb := y.retb + 1 } : Berth).AllHere := h
  rw [Berth.retired, Berth.advance_landing, h'.settle_eq, landAll_landing]
  rfl

theorem Berth.AllHere.retired_rg {y : Berth} (h : y.AllHere) (w : Word) (r : BitVec 6) :
    (y.retired w).rg r = (y.due.foldl Berth.landOne { y with pos := y.pos + 1, retb := y.retb + 1, landing := y.left }).rg r := by
  have h' : ({ y with pos := y.pos + 1, retb := y.retb + 1 } : Berth).AllHere := h
  rw [Berth.retired, Berth.advance_rg, h'.settle_eq]
  rfl

theorem Berth.AllHere.retired {y : Berth} (h : y.AllHere) (w : Word) : (y.retired w).AllHere := by
  intro e he
  rw [h.retired_landing w] at he
  exact h e (Berth.mem_left.mp he).1

/-- The landing entry of a result that the berth's bundle issues. -/
def Berth.entry (y : Berth) (d : Dest) (x : BitVec 512) (l : Nat) (fl : FFlags) : Landing :=
  { dest := d, pos := y.pos + l, data := x, flags := fl, wait := .here, buffered := decide (2 ≤ l) }

section
variable (y : Berth) (d : Dest) (x : BitVec 512) (l : Nat) (fl : FFlags)
@[simp] theorem Berth.entry_dest : (y.entry d x l fl).dest = d := rfl
@[simp] theorem Berth.entry_pos : (y.entry d x l fl).pos = y.pos + l := rfl
@[simp] theorem Berth.entry_data : (y.entry d x l fl).data = x := rfl
@[simp] theorem Berth.gets_pos : (y.gets d x l fl).pos = y.pos := rfl
@[simp] theorem Berth.gets_landing : (y.gets d x l fl).landing = y.landing ++ [y.entry d x l fl] := rfl

theorem Berth.AllHere.gets {y : Berth} (h : y.AllHere) : (y.gets d x l fl).AllHere :=
  List.forall_mem_append.mpr ⟨h, List.forall_mem_singleton.mpr rfl⟩
end

/-! ### A run of retirements -/

theorem Berth.retires_pos : ∀ (ns : List Word) (y : Berth), (ns.foldl Berth.retired y).pos = y.pos + ns.length
  | [], _ => rfl
  | w :: ns, y => by rw [List.foldl_cons, retires_pos ns, Berth.retired_pos, List.length_cons]; omega

theorem Berth.AllHere.retires : ∀ (ns : List Word) {y : Berth}, y.AllHere → (ns.foldl Berth.retired y).AllHere
  | [], _, h => h
  | w :: ns, _, h => retires ns (h.retired w)

/-- Bundles that retire before any result is due leave what is landing. -/
theorem Berth.AllHere.retires_landing : ∀ (ns : List Word) {y : Berth}, y.AllHere → (∀ e ∈ y.landing, y.pos + ns.length < e.pos) →
    (ns.foldl Berth.retired y).landing = y.landing
  | [], _, _, _ => rfl
  | w :: ns, y, h, hl => by
    have hl' : ∀ e ∈ y.landing, y.pos + 1 + ns.length < e.pos := fun e he => by
      have := hl e he
      simp only [List.length_cons] at this
      omega
    have hstep : (y.retired w).landing = y.landing := by
      rw [h.retired_landing w, Berth.left, List.filter_eq_self]
      intro e he
      have := hl' e he
      rw [decide_eq_false (by omega), Bool.not_false]
    rw [List.foldl_cons, retires_landing ns (h.retired w), hstep]
    rwa [hstep, Berth.retired_pos]

/-- Bundles that retire before any result is due in a g register leave the register (R35). -/
theorem Berth.AllHere.retires_rg_unwritten {r : BitVec 6} : ∀ (ns : List Word) {y : Berth}, y.AllHere →
    (∀ e ∈ y.landing, e.dest = .g r → y.pos + ns.length < e.pos) → (ns.foldl Berth.retired y).rg r = y.rg r
  | [], _, _, _ => rfl
  | w :: ns, y, h, hl => by
    have hl' : ∀ e ∈ y.landing, e.dest = .g r → y.pos + 1 + ns.length < e.pos := fun e he hd => by
      have := hl e he hd
      simp only [List.length_cons] at this
      omega
    have hdue : ∀ e ∈ y.due, e.dest ≠ .g r := fun e he hd => by
      obtain ⟨hm, hp⟩ := Berth.mem_due.mp he
      have := hl' e hm hd
      omega
    rw [List.foldl_cons, retires_rg_unwritten ns (h.retired w), h.retired_rg, Berth.rg_landAll_other _ _ hdue]
    · rfl
    · intro e he
      rw [h.retired_landing w] at he
      rw [Berth.retired_pos]
      exact hl' e (Berth.mem_left.mp he).1

/-- The order of results to one register (R37): after some bundles a g register holds the result `e` when every other one that has
landed in it was issued before `e` and landed no later, or was issued after `e` and landed before. -/
theorem Berth.AllHere.retires_rg_last {r : BitVec 6} (hr : r ≠ 0) {e : Landing} (he : e.dest = .g r) :
    ∀ (ns : List Word) {y : Berth} (a z : List Landing), y.AllHere → y.landing = a ++ e :: z →
      y.pos < e.pos → e.pos ≤ y.pos + ns.length →
      (∀ d ∈ a, d.dest = .g r → d.pos ≤ e.pos ∨ y.pos + ns.length < d.pos) →
      (∀ d ∈ z, d.dest = .g r → y.pos < d.pos ∧ d.pos < e.pos ∨ y.pos + ns.length < d.pos) →
      (ns.foldl Berth.retired y).rg r = e.data.setWidth 64
  | [], y, _, _, _, _, hlt, hle, _, _ => absurd hle (by simpa using hlt)
  | w :: ns, y, a, z, h, hy, hlt, hle, ha, hz => by
    have hlen : y.pos + (w :: ns).length = y.pos + 1 + ns.length := by simp only [List.length_cons]; omega
    rw [hlen] at hle ha hz
    rw [List.foldl_cons]
    by_cases hnow : e.pos = y.pos + 1
    · have hdue : y.due = a.filter (fun d => decide (d.pos ≤ y.pos + 1)) ++ e :: z.filter (fun d => decide (d.pos ≤ y.pos + 1)) := by
        simp [Berth.due, hy, hnow]
      have hz' : ∀ d ∈ z.filter (fun d => decide (d.pos ≤ y.pos + 1)), d.dest ≠ .g r := fun d hd hdr => by
        obtain ⟨hm, hp⟩ := List.mem_filter.mp hd
        have := hz d hm hdr
        have := of_decide_eq_true hp
        omega
      rw [retires_rg_unwritten ns (h.retired w), h.retired_rg, hdue, Berth.rg_landAll_last hr _ _ he hz']
      intro d hd hdr
      rw [h.retired_landing w] at hd
      obtain ⟨hm, hp⟩ := Berth.mem_left.mp hd
      rw [hy, List.mem_append, List.mem_cons] at hm
      rw [Berth.retired_pos]
      rcases hm with hm | rfl | hm
      · have := ha d hm hdr; omega
      · omega
      · have := hz d hm hdr; omega
    · have hleft : y.left = a.filter (fun d => !decide (d.pos ≤ y.pos + 1)) ++ e :: z.filter (fun d => !decide (d.pos ≤ y.pos + 1)) := by
        have : ¬ e.pos ≤ y.pos + 1 := by omega
        simp [Berth.left, hy, this]
      refine retires_rg_last hr he ns _ _ (h.retired w) ((h.retired_landing w).trans hleft) ?_ ?_ ?_ ?_ <;> rw [Berth.retired_pos]
      · omega
      · exact hle
      · exact fun d hd => ha d (List.mem_filter.mp hd).1
      · intro d hd hdr
        obtain ⟨hm, hp⟩ := List.mem_filter.mp hd
        simp only [Bool.not_eq_true', decide_eq_false_iff_not] at hp
        have := hz d hm hdr
        omega

/-- Settles O3: a g register after a write is `Berth.rg_write_g`, and a write to g0 is discarded. -/
theorem zeroRegister : Obligations.ZeroRegister := by
  unfold Obligations.ZeroRegister
  intro y x
  refine ⟨y.rg_zero, y.write_g_zero x, ?_, fun d r hd => ?_⟩
  · rw [Berth.rg_write_g, if_pos ⟨rfl, by decide⟩]
  · simp only [Berth.rg_write_g, and_iff_left hd]

/-- Settles O6: the result read is the last in the order of landing positions, and of issue where two are equal
(`Berth.AllHere.retires_rg_last`); with the earlier-issued result first in the list of what is landing, that is the later-issued one in
the first two clauses and the earlier-issued one in the third. -/
theorem landingOrder : Obligations.LandingOrder := by
  unfold Obligations.LandingOrder
  intro y r x1 x2 l1 l2 ns ms hr _ h2 hempty hns
  have hy : (y.gets (.g r) x1 l1 0).AllHere := Berth.AllHere.gets _ _ _ _ (by simp [Berth.AllHere, hempty])
  have hpos := Berth.retires_pos ns (y.gets (.g r) x1 l1 0)
  have hland := hy.retires_landing ns (by simpa [hempty] using hns)
  have hz := (hy.retires ns).gets (.g r) x2 l2 0
  generalize ns.foldl Berth.retired (y.gets (.g r) x1 l1 0) = z at *
  have hboth : (z.gets (.g r) x2 l2 0).landing = [y.entry (.g r) x1 l1 0, z.entry (.g r) x2 l2 0] := by simp [hland, hempty]
  have hlater : l2 ≤ ms.length → l1 ≤ ns.length + l2 ∨ ns.length + ms.length < l1 →
      (ms.foldl Berth.retired (z.gets (.g r) x2 l2 0)).rg r = x2.setWidth 64 := by
    intro hm ho
    refine hz.retires_rg_last hr (z.entry_dest ..) ms [y.entry (.g r) x1 l1 0] [] hboth ?_ ?_
      (List.forall_mem_singleton.mpr fun _ => ?_) (List.forall_mem_nil _)
    all_goals
      simp only [Berth.entry_pos, Berth.gets_pos] at hpos ⊢
      omega
  have hearlier : ns.length + l2 < l1 → l1 ≤ ns.length + ms.length →
      (ms.foldl Berth.retired (z.gets (.g r) x2 l2 0)).rg r = x1.setWidth 64 := by
    intro ho hm
    refine hz.retires_rg_last hr (y.entry_dest ..) ms [] [z.entry (.g r) x2 l2 0] hboth ?_ ?_
      (List.forall_mem_nil _) (List.forall_mem_singleton.mpr fun _ => ?_)
    all_goals
      simp only [Berth.entry_pos, Berth.gets_pos] at hpos ⊢
      omega
  exact ⟨fun ho hm => hlater hm (.inl ho), fun _ hm ho => hlater hm (.inr ho), hearlier⟩

end Sys2Proof.Machine
end
